-- ==== Sys2Proof/Word.lean ====
section
/-! DEFINITION. Words, fixed-size tables and the named values of the MV1620 (table 12-1 of
12_record_and_register_formats.md and section 4 of 00_scope.md). -/

namespace Sys2Proof

abbrev Byte := BitVec 8
abbrev Word := BitVec 32

/-- A table of exactly `n` records, numbered from 0. -/
structure Table (n : Nat) (α : Type) where
  cells : List α
  size : cells.length = n
deriving DecidableEq, Repr

namespace Table
variable {n : Nat} {α β : Type}

def get (t : Table n α) (i : Fin n) : α := t.cells.get (i.cast t.size.symm)

def set (t : Table n α) (i : Fin n) (x : α) : Table n α :=
  ⟨t.cells.set i x, by rw [List.length_set]; exact t.size⟩

def ofFn (f : Fin n → α) : Table n α := ⟨List.ofFn f, List.length_ofFn⟩

def fill (n : Nat) (x : α) : Table n α := ⟨List.replicate n x, List.length_replicate⟩

def map (f : α → β) (t : Table n α) : Table n β :=
  ⟨t.cells.map f, by rw [List.length_map]; exact t.size⟩

def modify (t : Table n α) (i : Fin n) (f : α → α) : Table n α := t.set i (f (t.get i))

/-- How many records satisfy `p`. -/
def count (t : Table n α) (p : α → Bool) : Nat := t.cells.countP p

/-- The record of a number that may be out of range. -/
def find? (t : Table n α) (k : Nat) : Option α := t.cells[k]?

end Table

/-- The two heads, coded 0 and 1 in records. -/
inductive Head where
  | a | b
deriving DecidableEq, Repr

/-- One record for each head. -/
structure PerHead (α : Type) where
  ofA : α
  ofB : α
deriving DecidableEq, Repr

namespace PerHead
variable {α : Type}

def get (p : PerHead α) : Head → α
  | .a => p.ofA
  | .b => p.ofB

def set (p : PerHead α) (h : Head) (x : α) : PerHead α :=
  match h with
  | .a => { p with ofA := x }
  | .b => { p with ofB := x }

def both (x : α) : PerHead α := ⟨x, x⟩

end PerHead

abbrev SourceId := Fin 16
abbrev PortId := Fin 16
abbrev SlotId := Fin 32
abbrev PageId := Fin 4
abbrev MaskId := Fin 4
abbrev TourId := Fin 8
abbrev RuleId := Fin 32
abbrev LineId := Fin 16
abbrev ColourId := Fin 16

/-- A palette entry or a composed sample: Y, Cb and Cr. -/
structure Colour where
  y : Byte
  cb : Byte
  cr : Byte
deriving DecidableEq, Repr

inductive Standard where
  | s525 | s625
deriving DecidableEq, Repr

/-- The expect field of a source: AUTO or one standard. -/
inductive Expect where
  | auto
  | only (std : Standard)
deriving DecidableEq, Repr

inductive SourceState where
  | off | searching | locked | unstable | lost
deriving DecidableEq, Repr

inductive LossPolicy where
  | black | freeze | pattern
deriving DecidableEq, Repr

inductive BankName where
  | working | pending | live
deriving DecidableEq, Repr

/-- The kind of a mask with the parameter its kind takes (R91). -/
inductive MaskKind where
  | solid (colour : ColourId)
  | mosaic (block : Nat)
  | darken (shift : Nat)
deriving DecidableEq, Repr

inductive Polarity where
  | activeHigh | activeLow
deriving DecidableEq, Repr

inductive LineState where
  | idle | active
deriving DecidableEq, Repr

inductive RunState where
  | running | held
deriving DecidableEq, Repr

inductive TourAction where
  | hold | resume | next | restart
deriving DecidableEq, Repr

/-- Why a call-up was refused or removed: the values of a CALLUP_REFUSED notice. -/
inductive RefusalReason where
  | noTile | listFull | displaced | cancelled
deriving DecidableEq, Repr

inductive HeadState where
  | stopped | running | stopping
deriving DecidableEq, Repr

inductive ProcState where
  | stopped | idle | fetching | waiting | executing | faulted
deriving DecidableEq, Repr

/-- The completion interrupt mode of CONTROL. -/
inductive CplMode where
  | each | drained
deriving DecidableEq, Repr

/-- The four ways a transfer of the part fails (R154). -/
inductive BusFaultKind where
  | noResponse | targetAbort | dataParity | retryLimit
deriving DecidableEq, Repr

/-- The three kinds of transfer on the bus-master path (R146), which are also the fault phases. -/
inductive Transfer where
  | fetch | resultWrite | completionWrite
deriving DecidableEq, Repr

/-- The result codes of table 12-6. -/
inductive Result where
  | ok | badCommand | badArgument | badGeometry | slotFree | slotInUse | tourEmpty | tourInUse
  | notTouring | headBusy | portInUse | nothingPending | superseded | cancelled | ruleEmpty
  | noTile | listFull | dataFault
deriving DecidableEq, Repr

end Sys2Proof
end

