-- ==== Sys2Proof/Config.lean ====
section
/-! DEFINITION. What one MV1620 fixes: the silicon revision, which the spec leaves to the part, and
the numbers the spec states once (ring sizes, reset palette, pattern bars, raster sizes). -/

namespace Sys2Proof.Config

/-- Bits 7-0 of IDENT. The spec names the field and gives no value: nothing constrains it (log 9). -/
opaque revision : Byte

/-- R141: the ring sizes a size register takes. -/
def ringSizes : List Nat := [16, 32, 64, 128, 256, 512, 1024]

/-- R141: bytes of one command entry and of one completion entry. -/
def commandBytes : Nat := 32
def completionBytes : Nat := 16

/-- R56: the palette after a device reset. -/
def resetPalette : Table 16 Colour :=
  ⟨[⟨16, 128, 128⟩, ⟨235, 128, 128⟩, ⟨126, 128, 128⟩, ⟨65, 100, 212⟩,
    ⟨112, 72, 58⟩, ⟨35, 212, 114⟩, ⟨162, 44, 142⟩, ⟨131, 156, 44⟩,
    ⟨84, 184, 198⟩, ⟨40, 128, 128⟩, ⟨60, 128, 128⟩, ⟨80, 128, 128⟩,
    ⟨100, 128, 128⟩, ⟨150, 128, 128⟩, ⟨180, 128, 128⟩, ⟨210, 128, 128⟩], rfl⟩

/-- R54: the eight bars of the PATTERN policy. -/
def patternBars : Table 8 Colour :=
  ⟨[⟨235, 128, 128⟩, ⟨162, 44, 142⟩, ⟨131, 156, 44⟩, ⟨112, 72, 58⟩,
    ⟨84, 184, 198⟩, ⟨65, 100, 212⟩, ⟨35, 212, 114⟩, ⟨16, 128, 128⟩], rfl⟩

/-- R38 and R79: lines of a raster or of a stored frame at one standard. -/
def frameLines : Standard → Nat
  | .s525 => 480
  | .s625 => 576

/-- R79: samples of a line, bytes of a stored line and bytes of a page's space. -/
def lineSamples : Nat := 720
def lineBytes : Nat := 1440
def pageBytes : Nat := 829440

/-- R63: the count of active lines at which a field end is forced. -/
def forcedFieldLines : Nat := 291

/-- R128: entries of a call-up list. -/
def listRoom : Nat := 4

/-- The byte of table 12-3 that names each command of the ring. -/
def knownCodes : List Nat :=
  [0x10, 0x11, 0x12, 0x13, 0x14, 0x15, 0x16, 0x17, 0x20, 0x21, 0x22, 0x23, 0x30, 0x31, 0x32,
   0x38, 0x39, 0x40, 0x41, 0x42, 0x50, 0x51, 0x52, 0x53, 0x54, 0x60, 0x61, 0x62, 0x63, 0x64,
   0x65, 0x66, 0x67]

end Sys2Proof.Config
end

