-- ==== Sys2Proof/Syntax.lean ====
section
/-! DEFINITION. The commands of the block, one constructor per row of spec/opcode_table.json. A ring
command carries the header of table 12-2 and its operand fields of table 12-4 as the numbers the
record holds; an event carries what its sender says of it. -/

namespace Sys2Proof

/-- Table 12-2: tag and flag byte of a command record, and whether every byte and bit that the
command's format marks reserved is zero (flag bits are looked at in `flags`). -/
structure Header where
  tag : Nat
  flags : Nat
  reservedZero : Bool
deriving DecidableEq, Repr

namespace Header

/-- Flag bit 0, Q. -/
def quiet (h : Header) : Bool := h.flags % 2 = 1

/-- R167: flag bits 1-7 and every reserved byte or bit are zero. -/
def clean (h : Header) : Bool := h.flags < 2 && h.reservedZero

end Header

/-- Table 12-4a: the tile block as the record carries it. -/
structure TileBlock where
  x : Nat
  y : Nat
  w : Nat
  h : Nat
  scale : Nat
  cx : Nat
  cy : Nat
  source : Nat
  tour : Nat
  borderWidth : Nat
  borderColour : Nat
  lossPolicy : Nat
  lossColour : Nat
deriving DecidableEq, Repr

/-- Operands of SOURCE_SET. -/
structure SourceArgs where
  source : Nat
  port : Nat
  expect : Nat
  hStart : Nat
  vStart : Nat
  fieldSwap : Nat
deriving DecidableEq, Repr

/-- Operands of MASK_SET. -/
structure MaskArgs where
  source : Nat
  slot : Nat
  kind : Nat
  parameter : Nat
  x : Nat
  y : Nat
  w : Nat
  h : Nat
deriving DecidableEq, Repr

/-- Operands of TOUR_SET: the twelve (source, dwell) pairs of bytes 8-31, read or not. -/
structure TourArgs where
  tour : Nat
  count : Nat
  skipLost : Nat
  steps : List (Nat × Nat)
deriving DecidableEq, Repr

/-- Operands of RULE_SET. -/
structure RuleArgs where
  rule : Nat
  line : Nat
  head : Nat
  slot : Nat
  source : Nat
  priority : Nat
  hold : Nat
  latch : Nat
deriving DecidableEq, Repr

/-- Bytes 4-8 of every query: buffer address and max count. -/
structure QueryArgs where
  buffer : Nat
  maxCount : Nat
deriving DecidableEq, Repr

/-- R116: a pin goes to the level `high`. `atSample`: its line's sample of the millisecond falls right after
the change, and before any other (log 23). -/
structure PinChange where
  high : Bool
  atSample : Bool
deriving DecidableEq, Repr

inductive Instr where
  -- commands of the ring, table 12-3
  | tilePlace (h : Header) (head slot rank : Nat) (tile : TileBlock)
  | tileModify (h : Header) (head slot groups : Nat) (tile : TileBlock)
  | tileRestack (h : Header) (head slot rank : Nat)
  | tileRetire (h : Header) (head slot : Nat)
  | layoutClear (h : Header) (head : Nat)
  | layoutRevert (h : Header) (head : Nat)
  | layoutCommit (h : Header) (head : Nat)
  | layoutCancel (h : Header) (head : Nat)
  | headStart (h : Header) (head standard : Nat)
  | headStop (h : Header) (head : Nat)
  | paletteSet (h : Header) (index y cb cr : Nat)
  | headBackground (h : Header) (head colour : Nat)
  | sourceSet (h : Header) (args : SourceArgs)
  | sourceDisable (h : Header) (source : Nat)
  | lockParams (h : Header) (lockCount unstableLimit lossTimeout : Nat)
  | maskSet (h : Header) (args : MaskArgs)
  | maskClear (h : Header) (source slot : Nat)
  | tourSet (h : Header) (args : TourArgs)
  | tourRetire (h : Header) (tour : Nat)
  | tourControl (h : Header) (head slot action : Nat)
  | lineSet (h : Header) (line enabled polarity debounce : Nat)
  | ruleSet (h : Header) (args : RuleArgs)
  | ruleRetire (h : Header) (rule : Nat)
  | callupTrigger (h : Header) (rule : Nat)
  | callupClear (h : Header) (head slot rule : Nat)
  | querySources (h : Header) (q : QueryArgs)
  | queryLayout (h : Header) (q : QueryArgs) (head bank : Nat)
  | queryRuntime (h : Header) (q : QueryArgs) (head : Nat)
  | queryTour (h : Header) (q : QueryArgs) (tour : Nat)
  | queryRules (h : Header) (q : QueryArgs)
  | queryLines (h : Header) (q : QueryArgs)
  | queryCallups (h : Header) (q : QueryArgs) (head slot : Nat)
  | queryNotices (h : Header) (q : QueryArgs)
  | badCommand (h : Header) (code : Nat)
  -- host writes of the register window
  | runSet
  | runClear
  | completionInterruptMode (mode : CplMode)
  | portReset
  | restart
  | cmdSize (value : Word)
  | cplSize (value : Word)
  | cmdProducer (value : Word)
  | cplRead (value : Word)
  | cause (value : Word)
  | registerWrite (offset : Nat) (enables : BitVec 4) (value : Word)
  -- transfers of the part on the host bus
  | fetch (record : List Byte)
  | leaveWaiting
  | resultWrite
  | completionWrite
  | busFault (kind : BusFaultKind)
  -- video, time and pins
  | frameStart (head : Head)
  | frameEnd (head : Head)
  | timingCode (port : PortId) (flags : Byte) (bytes : List Byte)
  | lossTimerExpiry (source : SourceId)
  | dwellExpiry (head : Head) (slot : SlotId)
  | levelChange (line : LineId) (change : PinChange)
  | debounceExpiry (line : LineId)
  | holdExpiry (rule : RuleId)
  | deviceReset
deriving DecidableEq, Repr

end Sys2Proof
end

