-- ==== Sys2Proof/WellFormed.lean ====
section
/-! DEFINITION. Which terms of `Instr` a sender can send: every field of a command record fits the
width table 12-4 gives it, a record is 32 bytes long, a window offset is that of an aligned word in
the 4 KB window, and the bytes between two timing codes hold no timing code. A value that fits its field but lies outside the field's range is well formed: the
command is then answered BAD_ARGUMENT by the part itself. -/

namespace Sys2Proof

def isByte (n : Nat) : Bool := n < 256
def isHalf (n : Nat) : Bool := n < 65536
def isWord (n : Nat) : Bool := n < 4294967296

def Header.wf (h : Header) : Bool := isHalf h.tag && isByte h.flags

def TileBlock.wf (t : TileBlock) : Bool :=
  [t.x, t.y, t.w, t.h, t.cx, t.cy].all isHalf
  && [t.scale, t.source, t.tour, t.borderWidth, t.borderColour, t.lossPolicy, t.lossColour].all isByte

def SourceArgs.wf (a : SourceArgs) : Bool :=
  [a.source, a.port, a.expect, a.hStart, a.vStart, a.fieldSwap].all isByte

def MaskArgs.wf (a : MaskArgs) : Bool :=
  [a.source, a.slot, a.kind, a.parameter].all isByte && [a.x, a.y, a.w, a.h].all isHalf

def TourArgs.wf (a : TourArgs) : Bool :=
  [a.tour, a.count, a.skipLost].all isByte && a.steps.length = 12
  && a.steps.all (fun s => isByte s.1 && isByte s.2)

def RuleArgs.wf (a : RuleArgs) : Bool :=
  [a.rule, a.line, a.head, a.slot, a.source, a.priority, a.hold, a.latch].all isByte

def QueryArgs.wf (q : QueryArgs) : Bool := isWord q.buffer && isByte q.maxCount

/-- R62: bytes that stand between two timing codes hold no 255, 0, 0. -/
def codeFree : List Byte → Bool
  | [] => true
  | b :: rest => !([255, 0, 0] : List Byte).isPrefixOf (b :: rest) && codeFree rest

/-- The check of one command. -/
def Instr.wf : Instr → Bool
  | .tilePlace h head slot rank tile => h.wf && [head, slot, rank].all isByte && tile.wf
  | .tileModify h head slot groups tile => h.wf && [head, slot, groups].all isByte && tile.wf
  | .tileRestack h head slot rank => h.wf && [head, slot, rank].all isByte
  | .tileRetire h head slot => h.wf && [head, slot].all isByte
  | .layoutClear h head => h.wf && isByte head
  | .layoutRevert h head => h.wf && isByte head
  | .layoutCommit h head => h.wf && isByte head
  | .layoutCancel h head => h.wf && isByte head
  | .headStart h head standard => h.wf && [head, standard].all isByte
  | .headStop h head => h.wf && isByte head
  | .paletteSet h index y cb cr => h.wf && [index, y, cb, cr].all isByte
  | .headBackground h head colour => h.wf && [head, colour].all isByte
  | .sourceSet h args => h.wf && args.wf
  | .sourceDisable h source => h.wf && isByte source
  | .lockParams h lockCount unstableLimit lossTimeout =>
      h.wf && [lockCount, unstableLimit].all isByte && isHalf lossTimeout
  | .maskSet h args => h.wf && args.wf
  | .maskClear h source slot => h.wf && [source, slot].all isByte
  | .tourSet h args => h.wf && args.wf
  | .tourRetire h tour => h.wf && isByte tour
  | .tourControl h head slot action => h.wf && [head, slot, action].all isByte
  | .lineSet h line enabled polarity debounce =>
      h.wf && [line, enabled, polarity, debounce].all isByte
  | .ruleSet h args => h.wf && args.wf
  | .ruleRetire h rule => h.wf && isByte rule
  | .callupTrigger h rule => h.wf && isByte rule
  | .callupClear h head slot rule => h.wf && [head, slot, rule].all isByte
  | .querySources h q => h.wf && q.wf
  | .queryLayout h q head bank => h.wf && q.wf && [head, bank].all isByte
  | .queryRuntime h q head => h.wf && q.wf && isByte head
  | .queryTour h q tour => h.wf && q.wf && isByte tour
  | .queryRules h q => h.wf && q.wf
  | .queryLines h q => h.wf && q.wf
  | .queryCallups h q head slot => h.wf && q.wf && [head, slot].all isByte
  | .queryNotices h q => h.wf && q.wf
  | .badCommand h code => h.wf && isByte code && !Config.knownCodes.contains code
  | .runSet => true
  | .runClear => true
  | .completionInterruptMode _ => true
  | .portReset => true
  | .restart => true
  | .cmdSize _ => true
  | .cplSize _ => true
  | .cmdProducer _ => true
  | .cplRead _ => true
  | .cause _ => true
  | .registerWrite offset _ _ => offset < 4096 && offset % 4 = 0
  | .fetch record => record.length = 32
  | .leaveWaiting => true
  | .resultWrite => true
  | .completionWrite => true
  | .busFault _ => true
  | .frameStart _ => true
  | .frameEnd _ => true
  | .timingCode _ _ bytes => codeFree bytes
  | .lossTimerExpiry _ => true
  | .dwellExpiry _ _ => true
  | .levelChange _ _ => true
  | .debounceExpiry _ => true
  | .holdExpiry _ => true
  | .deviceReset => true

end Sys2Proof
end

