-- ==== Sys2Proof/Decode.lean ====
section
/-! DEFINITION. The 32-byte command record of chapter 12 (tables 12-2, 12-3, 12-4 and 12-4a, R166,
R167) read as a command. The opcode table gives no row bits, so `decodeTableWord` answers none. -/

namespace Sys2Proof

namespace Record

def byteAt (r : List Byte) (k : Nat) : Nat := (r.getD k 0).toNat

/-- R166: a two-byte field, least significant byte at the lowest address. -/
def halfAt (r : List Byte) (k : Nat) : Nat := byteAt r k + 256 * byteAt r (k + 1)

def wordAt (r : List Byte) (k : Nat) : Nat := halfAt r k + 65536 * halfAt r (k + 2)

/-- Table 12-2, with `used` the record bytes 4-31 that table 12-4 gives the command: all others of
4-31 are reserved. -/
def header (r : List Byte) (used : List Nat) : Header :=
  { tag := halfAt r 2
    flags := byteAt r 1
    reservedZero := (List.range' 4 28).all (fun k => used.contains k || byteAt r k = 0) }

/-- Table 12-4a at record byte 8. -/
def tileBlock (r : List Byte) : TileBlock :=
  { x := halfAt r 8, y := halfAt r 10, w := halfAt r 12, h := halfAt r 14
    scale := byteAt r 16, cx := halfAt r 18, cy := halfAt r 20
    source := byteAt r 22, tour := byteAt r 23, borderWidth := byteAt r 24
    borderColour := byteAt r 25, lossPolicy := byteAt r 26, lossColour := byteAt r 27 }

/-- Record bytes of the tile block less its reserved byte 9. -/
def tileBytes : List Nat := List.range' 8 9 ++ List.range' 18 10

def query (r : List Byte) : QueryArgs := { buffer := wordAt r 4, maxCount := byteAt r 8 }

def queryBytes : List Nat := [4, 5, 6, 7, 8]

end Record

open Record in
/-- The command a record spells: the code of byte 0 by table 12-3, BAD_COMMAND for any other code
(R167), operands by table 12-4. -/
def decodeRecord (r : List Byte) : Instr :=
  let b := byteAt r
  match b 0 with
  | 0x10 => .tilePlace (header r ([4, 5, 6] ++ tileBytes)) (b 4) (b 5) (b 6) (tileBlock r)
  | 0x11 => .tileModify (header r ([4, 5, 6] ++ tileBytes)) (b 4) (b 5) (b 6) (tileBlock r)
  | 0x12 => .tileRestack (header r [4, 5, 6]) (b 4) (b 5) (b 6)
  | 0x13 => .tileRetire (header r [4, 5]) (b 4) (b 5)
  | 0x14 => .layoutClear (header r [4]) (b 4)
  | 0x15 => .layoutRevert (header r [4]) (b 4)
  | 0x16 => .layoutCommit (header r [4]) (b 4)
  | 0x17 => .layoutCancel (header r [4]) (b 4)
  | 0x20 => .headStart (header r [4, 5]) (b 4) (b 5)
  | 0x21 => .headStop (header r [4]) (b 4)
  | 0x22 => .paletteSet (header r [4, 5, 6, 7]) (b 4) (b 5) (b 6) (b 7)
  | 0x23 => .headBackground (header r [4, 5]) (b 4) (b 5)
  | 0x30 => .sourceSet (header r [4, 5, 6, 7, 8, 9])
      { source := b 4, port := b 5, expect := b 6, hStart := b 7, vStart := b 8, fieldSwap := b 9 }
  | 0x31 => .sourceDisable (header r [4]) (b 4)
  | 0x32 => .lockParams (header r [4, 5, 6, 7]) (b 4) (b 5) (halfAt r 6)
  | 0x38 => .maskSet (header r (List.range' 4 12))
      { source := b 4, slot := b 5, kind := b 6, parameter := b 7
        x := halfAt r 8, y := halfAt r 10, w := halfAt r 12, h := halfAt r 14 }
  | 0x39 => .maskClear (header r [4, 5]) (b 4) (b 5)
  | 0x40 => .tourSet (header r ([4, 5, 6] ++ List.range' 8 24))
      { tour := b 4, count := b 5, skipLost := b 6
        steps := (List.range 12).map (fun k => (b (8 + 2 * k), b (9 + 2 * k))) }
  | 0x41 => .tourRetire (header r [4]) (b 4)
  | 0x42 => .tourControl (header r [4, 5, 6]) (b 4) (b 5) (b 6)
  | 0x50 => .lineSet (header r [4, 5, 6, 7]) (b 4) (b 5) (b 6) (b 7)
  | 0x51 => .ruleSet (header r (List.range' 4 8))
      { rule := b 4, line := b 5, head := b 6, slot := b 7
        source := b 8, priority := b 9, hold := b 10, latch := b 11 }
  | 0x52 => .ruleRetire (header r [4]) (b 4)
  | 0x53 => .callupTrigger (header r [4]) (b 4)
  | 0x54 => .callupClear (header r [4, 5, 6]) (b 4) (b 5) (b 6)
  | 0x60 => .querySources (header r queryBytes) (query r)
  | 0x61 => .queryLayout (header r (queryBytes ++ [9, 10])) (query r) (b 9) (b 10)
  | 0x62 => .queryRuntime (header r (queryBytes ++ [9])) (query r) (b 9)
  | 0x63 => .queryTour (header r (queryBytes ++ [9])) (query r) (b 9)
  | 0x64 => .queryRules (header r queryBytes) (query r)
  | 0x65 => .queryLines (header r queryBytes) (query r)
  | 0x66 => .queryCallups (header r (queryBytes ++ [9, 10])) (query r) (b 9) (b 10)
  | 0x67 => .queryNotices (header r queryBytes) (query r)
  | code => .badCommand (header r []) code

/-- Table 12-3: the code byte of a ring command, which its completion carries (R168). None for a
command that is not one of the ring. -/
def Instr.code : Instr → Option Nat
  | .tilePlace .. => some 0x10
  | .tileModify .. => some 0x11
  | .tileRestack .. => some 0x12
  | .tileRetire .. => some 0x13
  | .layoutClear .. => some 0x14
  | .layoutRevert .. => some 0x15
  | .layoutCommit .. => some 0x16
  | .layoutCancel .. => some 0x17
  | .headStart .. => some 0x20
  | .headStop .. => some 0x21
  | .paletteSet .. => some 0x22
  | .headBackground .. => some 0x23
  | .sourceSet .. => some 0x30
  | .sourceDisable .. => some 0x31
  | .lockParams .. => some 0x32
  | .maskSet .. => some 0x38
  | .maskClear .. => some 0x39
  | .tourSet .. => some 0x40
  | .tourRetire .. => some 0x41
  | .tourControl .. => some 0x42
  | .lineSet .. => some 0x50
  | .ruleSet .. => some 0x51
  | .ruleRetire .. => some 0x52
  | .callupTrigger .. => some 0x53
  | .callupClear .. => some 0x54
  | .querySources .. => some 0x60
  | .queryLayout .. => some 0x61
  | .queryRuntime .. => some 0x62
  | .queryTour .. => some 0x63
  | .queryRules .. => some 0x64
  | .queryLines .. => some 0x65
  | .queryCallups .. => some 0x66
  | .queryNotices .. => some 0x67
  | .badCommand _ code => some code
  | .runSet | .runClear | .completionInterruptMode _ | .portReset | .restart => none
  | .cmdSize _ | .cplSize _ | .cmdProducer _ | .cplRead _ | .cause _ | .registerWrite .. => none
  | .fetch _ | .leaveWaiting | .resultWrite | .completionWrite | .busFault _ => none
  | .frameStart _ | .frameEnd _ | .timingCode .. | .lossTimerExpiry _ | .dwellExpiry .. => none
  | .levelChange .. | .debounceExpiry _ | .holdExpiry _ | .deviceReset => none

/-- No row of spec/opcode_table.json gives bits, so no word spells a command. -/
def decodeTableWord (_nbits _w : Nat) : Option Instr := none

end Sys2Proof
end

