-- ==== Sys2Proof/Machine/State.lean ====
section
/-! DEFINITION. The state of the MV1620: every record the spec gives the part, as plain data, and the
machine right after a device reset. INVENTORY.md lists each piece with the rule that names it. -/

namespace Sys2Proof.Machine

/-! ### Layout directory (01, 02) -/

/-- Table 1-1, group GEOMETRY. -/
structure Geometry where
  x : Nat
  y : Nat
  w : Nat
  h : Nat
deriving DecidableEq, Repr

/-- Table 1-1, group VIEW. -/
structure View where
  scale : Nat
  cx : Nat
  cy : Nat
deriving DecidableEq, Repr

/-- Table 1-1, group STYLE. -/
structure Style where
  borderWidth : Nat
  borderColour : ColourId
  lossPolicy : LossPolicy
  lossColour : ColourId
deriving DecidableEq, Repr

/-- The tile record of table 1-1; NONE is `none`. -/
structure Tile where
  geometry : Geometry
  view : View
  source : Option SourceId
  tour : Option TourId
  style : Style
deriving DecidableEq, Repr

/-- R1, R2, R11: 32 slots, FREE (`none`) or DEFINED, and the rank order, topmost first. -/
structure Bank where
  slots : Table 32 (Option Tile)
  order : List SlotId
deriving DecidableEq, Repr

/-- R23: a present commit record. ANSWERED holds one completion reservation. -/
structure CommitRecord where
  bank : Bank
  tag : Nat
  quiet : Bool
  answered : Bool
deriving DecidableEq, Repr

/-- R1, R23: one head's directory. -/
structure Directory where
  working : Bank
  live : Bank
  commit : Option CommitRecord
deriving DecidableEq, Repr

/-! ### Masks (06) -/

/-- R91: a mask record. -/
structure Mask where
  x : Nat
  y : Nat
  w : Nat
  h : Nat
  kind : MaskKind
deriving DecidableEq, Repr

abbrev MaskSlots := Table 4 (Option Mask)

/-! ### Heads (03) -/

/-- R37: what a head latched at its last frame start. -/
structure FrameView where
  shown : Table 32 (Option SourceId)
  states : Table 16 (Option SourceState)
  masks : Table 16 (Option MaskSlots)
  palette : Table 16 Colour
  background : ColourId
deriving DecidableEq, Repr

/-- R37: the head record, whether a frame is in flight (R39), and whether the output port has left the
idle level (R59). `claims` holds the page the head claimed of each source; the holders of R79 are read
from it. -/
structure HeadRecord where
  state : HeadState
  standard : Standard
  frameNumber : Word
  background : ColourId
  inFlight : Bool
  sending : Bool
  view : FrameView
  claims : Table 16 (Option PageId)
deriving DecidableEq, Repr

/-! ### Sources and the frame store (04, 05) -/

/-- R63, R65: a field in progress: its field bit, the active lines received so far, and whether each
of them was well formed. -/
structure FieldInProgress where
  bit : Bool
  lines : Nat
  wellFormed : Bool
deriving DecidableEq, Repr

/-- Table 4-1, with what R62 and R63 make the lock monitor remember of the stream: a vertical-blank
code seen since the last field start, an active line open, a field in progress. The loss timer is
stopped (`none`) or runs with milliseconds left. -/
structure SourceRecord where
  enabled : Bool
  port : PortId
  expect : Expect
  hStart : Nat
  vStart : Nat
  fieldSwap : Bool
  state : SourceState
  standard : Option Standard
  goodRun : Nat
  badRun : Nat
  candidate : Option Standard
  lastBit : Option Bool
  lossTimer : Option Nat
  sawBlank : Bool
  lineOpen : Bool
  field : Option FieldInProgress
deriving DecidableEq, Repr

/-- R74: the lock parameters; the loss timeout in milliseconds. -/
structure LockParams where
  lockCount : Nat
  unstableLimit : Nat
  lossTimeout : Nat
deriving DecidableEq, Repr

/-- R79: a present writer; the top verdict is PENDING (`none`), GOOD or BAD. -/
structure Writer where
  page : PageId
  height : Nat
  top : Option Bool
deriving DecidableEq, Repr

/-- R79: one source's page table, less the holders (see `HeadRecord.claims`). -/
structure PageTable where
  newest : Option PageId
  writer : Option Writer
  heights : Table 4 Nat
  count : Word
deriving DecidableEq, Repr

/-! ### Tours (07) -/

/-- R100: one step, with its dwell in seconds. -/
structure TourStep where
  source : SourceId
  dwell : Nat
deriving DecidableEq, Repr

/-- R100: a DEFINED tour; the step count is the length of the list. -/
structure Tour where
  steps : List TourStep
  skipLost : Bool
deriving DecidableEq, Repr

/-- R104: a tour runtime; the remaining dwell in milliseconds. -/
structure Runtime where
  step : Nat
  remaining : Nat
  state : RunState
deriving DecidableEq, Repr

/-! ### Alarm lines, rules and call-up lists (08, 09) -/

/-- R115, R116: a line, its debounce timer in milliseconds, the level its pin carries now, the raw level
at the last sample (`true` is high), and whether the one sample of the millisecond has been taken
(log 23). -/
structure LineRecord where
  enabled : Bool
  polarity : Polarity
  debounce : Nat
  state : LineState
  timer : Option Nat
  pinHigh : Bool
  rawHigh : Bool
  sampled : Bool
deriving DecidableEq, Repr

/-- R123: a DEFINED call-up rule; the hold in seconds. -/
structure Rule where
  line : Option LineId
  head : Head
  slot : SlotId
  source : SourceId
  priority : Nat
  hold : Nat
  latch : Bool
deriving DecidableEq, Repr

/-- R128: the state of an entry; the remaining hold, in milliseconds, is present in HOLDING alone. -/
inductive EntryState where
  | asserted
  | holding (remaining : Nat)
  | latched
deriving DecidableEq, Repr

/-- R128: one entry of a call-up list. -/
structure Entry where
  rule : RuleId
  priority : Nat
  arrival : Word
  state : EntryState
deriving DecidableEq, Repr

/-! ### Notices (11) -/

/-- R159: the (kind, object) keys. -/
inductive NoticeKey where
  | sourceState (source : SourceId)
  | callupChange (head : Head) (slot : SlotId)
  | callupRefused (rule : RuleId)
  | tourAllLost (head : Head) (slot : SlotId)
deriving DecidableEq, Repr

/-- R159: the values a notice holds, by kind. -/
inductive NoticeValue where
  | state (state : SourceState)
  | top (rule : Option RuleId)
  | reason (reason : RefusalReason)
  | step (index : Nat)
deriving DecidableEq, Repr

/-- R159: at most one value for each key. -/
structure NoticeSet where
  sourceState : Table 16 (Option NoticeValue)
  callupChange : PerHead (Table 32 (Option NoticeValue))
  callupRefused : Table 32 (Option NoticeValue)
  tourAllLost : PerHead (Table 32 (Option NoticeValue))
deriving DecidableEq, Repr

/-! ### Command port (10) -/

/-- R152: the six causes of CAUSE and of ENABLE. -/
structure Causes where
  cpl : Bool
  notice : Bool
  fault : Bool
  indexError : Bool
  frameA : Bool
  frameB : Bool
deriving DecidableEq, Repr

/-- R154: a filled fault record. -/
structure FaultRecord where
  kind : BusFaultKind
  phase : Transfer
  address : Word
deriving DecidableEq, Repr

/-- R145, R168: a complete answer. -/
structure Completion where
  tag : Nat
  code : Nat
  result : Result
  detail : Nat
  detail2 : Nat
deriving DecidableEq, Repr

/-- One result record of a query: its bytes and, for QUERY_NOTICES, the notice it reports. -/
structure ResultRecord where
  bytes : List Byte
  notice : Option (NoticeKey × NoticeValue)
deriving DecidableEq, Repr

/-- R151, R161: the query under way: its header and code, the bus address of the next record, the
snapshot's records still to write, how many are wholly written and how many were available. -/
structure QueryRun where
  header : Header
  code : Nat
  address : Word
  left : List ResultRecord
  written : Nat
  available : Nat
deriving DecidableEq, Repr

/-- A record the part has wholly written on the host bus. -/
structure BusWrite where
  address : Word
  bytes : List Byte
deriving DecidableEq, Repr

/-- The command port. `held` is the fetched command of WAITING, `query` the query of EXECUTING,
`path` the transfer on the bus-master path, `mark` the activity mark of R153, `lastWrite` the model's
own view of the last record written on the host bus (log 4). -/
structure Port where
  run : Bool
  mode : CplMode
  cmdBase : Word
  cmdSize : Nat
  cmdProducer : Nat
  cmdConsumer : Nat
  cplBase : Word
  cplSize : Nat
  cplWrite : Nat
  cplRead : Nat
  cause : Causes
  enable : Causes
  fault : Option FaultRecord
  proc : ProcState
  held : Option Instr
  query : Option QueryRun
  path : Option Transfer
  queue : List Completion
  mark : Bool
  lastWrite : Option BusWrite
deriving DecidableEq, Repr

/-! ### The whole part -/

/-- The state of the part and the queue of commands that wait for it. -/
structure State where
  pending : List Instr
  port : Port
  dirs : PerHead Directory
  heads : PerHead HeadRecord
  palette : Table 16 Colour
  sources : Table 16 SourceRecord
  params : LockParams
  pages : Table 16 PageTable
  store : List Host.Cell
  masks : Table 16 MaskSlots
  tours : Table 8 (Option Tour)
  runtimes : PerHead (Table 32 (Option Runtime))
  lines : Table 16 LineRecord
  rules : Table 32 (Option Rule)
  lists : PerHead (Table 32 (List Entry))
  arrival : Word
  notices : NoticeSet
deriving DecidableEq, Repr

/-- No command of this block stops the machine with a fault: the spec answers, discards or carries
out every command in every state. So there is no constructor, and nobody raises one. -/
inductive Fault where
deriving DecidableEq, Repr

/-- The one refusal: a command that has no meaning yet, named by its mnemonic (raised by an arm of
`exec` alone, and by none here). Safe: the model stops where the hardware goes on. -/
inductive Refusal where
  | notModelled (mnemonic : String)
deriving DecidableEq, Repr

/-! ### Device reset -/

def Bank.empty : Bank := { slots := .fill 32 none, order := [] }

/-- R3, R35. -/
def Directory.reset : Directory := { working := .empty, live := .empty, commit := none }

/-- R37: the frame view after a device reset (its latched background: log 14). -/
def FrameView.reset : FrameView :=
  { shown := .fill 32 none, states := .fill 16 none, masks := .fill 16 none
    palette := Config.resetPalette, background := 0 }

/-- R37. -/
def HeadRecord.reset : HeadRecord :=
  { state := .stopped, standard := .s525, frameNumber := 0, background := 0, inFlight := false
    sending := false, view := .reset, claims := .fill 16 none }

/-- Table 4-1: Sn is bound to INn. -/
def SourceRecord.reset (n : SourceId) : SourceRecord :=
  { enabled := false, port := n, expect := .auto, hStart := 0, vStart := 0, fieldSwap := false
    state := .off, standard := none, goodRun := 0, badRun := 0, candidate := none, lastBit := none
    lossTimer := none, sawBlank := false, lineOpen := false, field := none }

/-- R79. -/
def PageTable.reset : PageTable :=
  { newest := none, writer := none, heights := .fill 4 480, count := 0 }

/-- R74. -/
def LockParams.reset : LockParams := { lockCount := 4, unstableLimit := 8, lossTimeout := 100 }

/-- R115, on a pin that is low and was low at its last sample (log 8). -/
def LineRecord.reset : LineRecord :=
  { enabled := false, polarity := .activeHigh, debounce := 5, state := .idle, timer := none
    pinHigh := false, rawHigh := false, sampled := false }

/-- R159. -/
def NoticeSet.empty : NoticeSet :=
  { sourceState := .fill 16 none, callupChange := .both (.fill 32 none)
    callupRefused := .fill 32 none, tourAllLost := .both (.fill 32 none) }

def Causes.clear : Causes :=
  { cpl := false, notice := false, fault := false, indexError := false, frameA := false
    frameB := false }

/-- R157, R158. -/
def Port.reset : Port :=
  { run := false, mode := .each, cmdBase := 0, cmdSize := 0, cmdProducer := 0, cmdConsumer := 0
    cplBase := 0, cplSize := 0, cplWrite := 0, cplRead := 0, cause := .clear, enable := .clear
    fault := none, proc := .stopped, held := none, query := none, path := none, queue := []
    mark := false, lastWrite := none }

/-- The part right after a device reset, every alarm pin low (log 8), the SDRAM at its power-on
contents (log 7), no command waiting. -/
def State.reset : State :=
  { pending := []
    port := .reset
    dirs := .both .reset
    heads := .both .reset
    palette := Config.resetPalette
    sources := .ofFn SourceRecord.reset
    params := .reset
    pages := .fill 16 .reset
    store := []
    masks := .fill 16 (.fill 4 none)
    tours := .fill 8 none
    runtimes := .both (.fill 32 none)
    lines := .fill 16 .reset
    rules := .fill 32 none
    lists := .both (.fill 32 [])
    arrival := 0
    notices := .empty }

end Sys2Proof.Machine
end

