-- ==== Sys2Proof/Machine/Ops.lean ====
section
/-! DEFINITION. The operations the commands share: the SDRAM, the records of State, raising a notice,
the completion queue with its room, and the run of one ring command from its fetch to its answer. -/

namespace Sys2Proof.Machine

/-! ### The SDRAM of the frame store: cells in canonical form (R79, log 7) -/

abbrev Memory := List Host.Cell

namespace Memory

/-- What an address reads as that nothing has written (log 7, DESIGN CHOICE). -/
def blank : Byte := 0

def read : Memory → Nat → Byte
  | [], _ => blank
  | (k, v) :: m, a => if k = a then v else read m a

/-- Store one byte: addresses stay strictly rising and no cell holds `blank`. -/
def write : Memory → Nat → Byte → Memory
  | [], a, b => if b = blank then [] else [(a, b)]
  | (k, v) :: m, a, b =>
      if a < k then (if b = blank then (k, v) :: m else (a, b) :: (k, v) :: m)
      else if a = k then (if b = blank then m else (a, b) :: m)
      else (k, v) :: write m a b

/-- Store bytes at consecutive addresses from `a`. -/
def writeBytes (m : Memory) (a : Nat) : List Byte → Memory
  | [] => m
  | b :: bs => writeBytes (write m a b) (a + 1) bs

/-- Every cell lies above `lo`, addresses strictly rise and no cell holds `blank`. -/
def wfAbove : Option Nat → Memory → Bool
  | _, [] => true
  | lo, (k, v) :: m =>
      (match lo with
        | none => true
        | some l => decide (l < k))
      && v ≠ blank && wfAbove (some k) m

/-- The canonical form. -/
def wf (m : Memory) : Bool := wfAbove none m

end Memory

/-! ### Records of State -/

namespace State

def dir (s : State) (h : Head) : Directory := s.dirs.get h
def head (s : State) (h : Head) : HeadRecord := s.heads.get h
def source (s : State) (i : SourceId) : SourceRecord := s.sources.get i
def page (s : State) (i : SourceId) : PageTable := s.pages.get i
def tour (s : State) (t : TourId) : Option Tour := s.tours.get t
def rule (s : State) (r : RuleId) : Option Rule := s.rules.get r
def line (s : State) (l : LineId) : LineRecord := s.lines.get l
def runtime (s : State) (h : Head) (slot : SlotId) : Option Runtime := (s.runtimes.get h).get slot
def list (s : State) (h : Head) (slot : SlotId) : List Entry := (s.lists.get h).get slot

/-- The tile of a slot of a head's LIVE bank, if DEFINED. -/
def liveTile (s : State) (h : Head) (slot : SlotId) : Option Tile := (s.dir h).live.slots.get slot

def setPort (s : State) (p : Port) : State := { s with port := p }
def setDir (s : State) (h : Head) (d : Directory) : State := { s with dirs := s.dirs.set h d }
def setHead (s : State) (h : Head) (r : HeadRecord) : State := { s with heads := s.heads.set h r }
def setSource (s : State) (i : SourceId) (r : SourceRecord) : State :=
  { s with sources := s.sources.set i r }
def setPage (s : State) (i : SourceId) (t : PageTable) : State := { s with pages := s.pages.set i t }
def setStore (s : State) (m : List Host.Cell) : State := { s with store := m }
def setTour (s : State) (t : TourId) (r : Option Tour) : State := { s with tours := s.tours.set t r }
def setLine (s : State) (l : LineId) (r : LineRecord) : State := { s with lines := s.lines.set l r }
def setRule (s : State) (r : RuleId) (x : Option Rule) : State := { s with rules := s.rules.set r x }
def setRuntime (s : State) (h : Head) (slot : SlotId) (r : Option Runtime) : State :=
  { s with runtimes := s.runtimes.set h ((s.runtimes.get h).set slot r) }
def setList (s : State) (h : Head) (slot : SlotId) (l : List Entry) : State :=
  { s with lists := s.lists.set h ((s.lists.get h).set slot l) }
def setColour (s : State) (k : ColourId) (c : Colour) : State := { s with palette := s.palette.set k c }
def setMasks (s : State) (i : SourceId) (m : MaskSlots) : State := { s with masks := s.masks.set i m }

end State

/-! ### Notices (R160) -/

namespace NoticeSet

def get (n : NoticeSet) : NoticeKey → Option NoticeValue
  | .sourceState i => n.sourceState.get i
  | .callupChange h slot => (n.callupChange.get h).get slot
  | .callupRefused r => n.callupRefused.get r
  | .tourAllLost h slot => (n.tourAllLost.get h).get slot

def put (n : NoticeSet) (k : NoticeKey) (v : Option NoticeValue) : NoticeSet :=
  match k with
  | .sourceState i => { n with sourceState := n.sourceState.set i v }
  | .callupChange h slot =>
      { n with callupChange := n.callupChange.set h ((n.callupChange.get h).set slot v) }
  | .callupRefused r => { n with callupRefused := n.callupRefused.set r v }
  | .tourAllLost h slot =>
      { n with tourAllLost := n.tourAllLost.set h ((n.tourAllLost.get h).set slot v) }

/-- R159: the 176 keys in key order. -/
def keys : List NoticeKey :=
  (List.finRange 16).map .sourceState
  ++ (List.finRange 32).map (.callupChange .a) ++ (List.finRange 32).map (.callupChange .b)
  ++ (List.finRange 32).map .callupRefused
  ++ (List.finRange 32).map (.tourAllLost .a) ++ (List.finRange 32).map (.tourAllLost .b)

/-- The notices of the set in key order. -/
def inOrder (n : NoticeSet) : List (NoticeKey × NoticeValue) :=
  keys.filterMap (fun k => (n.get k).map (fun v => (k, v)))

/-- R161: how many notices stand in the set. -/
def size (n : NoticeSet) : Nat := n.inOrder.length

end NoticeSet

/-- R160: add the notice under an absent key and set cause NOTICE, or replace the value of a present
one. -/
def State.raise (s : State) (k : NoticeKey) (v : NoticeValue) : State :=
  let cause := { s.port.cause with notice := s.port.cause.notice || (s.notices.get k).isNone }
  { s with notices := s.notices.put k (some v), port := { s.port with cause := cause } }

/-! ### Rings (R142, R143) -/

/-- The distance from `lo` forward to `hi` in a ring of `n` entries, indices modulo 2n. -/
def ringDistance (n hi lo : Nat) : Nat := (hi + 2 * n - lo) % (2 * n)

/-- The index after `i`. -/
def ringNext (n i : Nat) : Nat := (i + 1) % (2 * n)

namespace Port

/-- R142: commands announced and not yet fetched. -/
def outstanding (p : Port) : Nat := ringDistance p.cmdSize p.cmdProducer p.cmdConsumer

/-- R143: completion records written and not yet given back. -/
def occupancy (p : Port) : Nat := ringDistance p.cplSize p.cplWrite p.cplRead

/-- R145, R153: a completion joins the tail of the queue, which sets the activity mark. -/
def enqueue (p : Port) (c : Completion) : Port := { p with queue := p.queue ++ [c], mark := true }

/-- R150: the state a processor takes when an execution ends. -/
def atRest (p : Port) : ProcState := if p.run then .idle else .stopped

/-- R148: in IDLE with RUN set and a command announced, the processor becomes FETCHING. -/
def announce (p : Port) : Port :=
  if p.proc = .idle ∧ p.run = true ∧ p.cmdProducer ≠ p.cmdConsumer then { p with proc := .fetching }
  else p

/-- R146, R154: the arbiter hands a free path to a waiting transfer, the completion writer first, and
to none while the processor is FAULTED. -/
def grant (p : Port) : Port :=
  if p.path.isSome ∨ p.proc = .faulted then p
  else if p.queue ≠ [] then { p with path := some .completionWrite }
  else if p.proc = .fetching then { p with path := some .fetch }
  else if p.proc = .executing ∧ p.query.isSome then { p with path := some .resultWrite }
  else p

/-- R153: DRAINED mode raises CPL when its conditions hold at once, and clears the mark. -/
def drain (p : Port) : Port :=
  if p.mode = .drained ∧ p.mark = true ∧ p.queue = [] ∧ p.path ≠ some .completionWrite
      ∧ (p.proc = .stopped ∨ p.proc = .idle ∧ p.cmdProducer = p.cmdConsumer)
  then { p with cause := { p.cause with cpl := true }, mark := false }
  else p

/-- What the port does by itself once a command is over (log 5). -/
def settle (p : Port) : Port := p.announce.grant.drain

end Port

def State.settled (s : State) : State := s.setPort s.port.settle

/-! ### Room for answers (R144, R145) -/

namespace State

/-- R144: a head's commit record holds a reservation exactly while it is ANSWERED. -/
def holdsAnswer (s : State) (h : Head) : Nat :=
  match (s.dir h).commit with
  | some c => if c.answered then 1 else 0
  | none => 0

def answeredCommits (s : State) : Nat := s.holdsAnswer .a + s.holdsAnswer .b

/-- R144: reservations held, by the query under way and by ANSWERED commit records. -/
def reservations (s : State) : Nat := (if s.port.query.isSome then 1 else 0) + s.answeredCommits

/-- R144: completion entries neither occupied, nor queued for, nor reserved. -/
def freeSpace (s : State) : Nat :=
  s.port.cplSize - s.port.occupancy - s.port.queue.length - s.reservations

/-- R148: free space of at least 1 and the queue-room condition of R145. -/
def hasRoom (s : State) : Bool := 1 ≤ s.freeSpace && s.port.queue.length + s.answeredCommits ≤ 2

end State

/-! ### One command of the ring, from its fetch to its answer -/

/-- How a block answers a command: at once with a result and a detail, as a query with its two counts
(R168), later (a deferred LAYOUT_COMMIT), or after a run of result writes. -/
inductive Answer where
  | done (result : Result) (detail : Nat)
  | counts (written available : Nat)
  | deferred
  | running (query : QueryRun)
deriving DecidableEq, Repr

abbrev Reply := State × Answer

/-- A refused command changes nothing; the detail of a refusal is 0 unless its rule names one. -/
def refuse (s : State) (r : Result) (detail : Nat := 0) : Reply := (s, .done r detail)

namespace Port

/-- R150: a command's answer joins the queue, unless the result is OK and the command quiet. -/
def answered (p : Port) (h : Header) (code : Nat) (r : Result) (detail detail2 : Nat) : Port :=
  if r = .ok ∧ h.quiet = true then { p with mark := true }
  else p.enqueue { tag := h.tag, code, result := r, detail, detail2 }

/-- R150, R151: the end of an execution by its answer, and the processor's next state. -/
def executed (p : Port) (h : Header) (code : Nat) : Answer → Port
  | .done r d => { p.answered h code r d 0 with proc := p.atRest }
  | .counts w a => { p.answered h code .ok w a with proc := p.atRest }
  | .deferred => { p with mark := true, proc := p.atRest }
  | .running q => { p with mark := true, proc := .executing, query := some q }

/-- R148: the read of a command entry has completed. -/
def fetched (p : Port) : Port :=
  { p with path := none, cmdConsumer := ringNext p.cmdSize p.cmdConsumer }

/-- R148, R149: the processor takes the reservation and becomes EXECUTING. -/
def took (p : Port) : Port := { p with proc := .executing, held := none, query := none }

/-- R148: without room the processor waits, holding the command. -/
def wait (p : Port) (i : Instr) : Port := { p with proc := .waiting, held := some i }

end Port

namespace State

/-- A command fetch is on the path (R148). -/
def fetchUnderWay (s : State) : Bool := s.port.proc = .fetching && s.port.path = some .fetch

/-- The state in which a fetched command is executed: the entry read, the reservation taken. -/
def taken (s : State) : State := s.setPort s.port.fetched.took

end State

/-- R150: the owning block's execution and the disposal of its answer. -/
def answering (h : Header) (code : Nat) (block : State → Reply) (s : State) : State :=
  (block s).1.setPort ((block s).1.port.executed h code (block s).2)

/-- R148: the read of the record that spells command `i` completes. With room the command is executed
by `run`; without, the processor waits with it. Where no fetch is under way the part reads no record
and nothing happens (log 2, log 3). -/
def arrive (i : Instr) (run : State → State) (s : State) : State :=
  if s.fetchUnderWay then
    if (s.setPort s.port.fetched).hasRoom then (run s.taken).settled
    else (s.setPort (s.port.fetched.wait i)).settled
  else s

/-! ### Small shared readings -/

/-- R104, R165: milliseconds reported in whole seconds, rounded up. -/
def wholeSeconds (ms : Nat) : Nat := (ms + 999) / 1000

end Sys2Proof.Machine
end

