-- ==== Sys2Proof/Machine/Operands.lean ====
section
/-! DEFINITION. Every operand field of a command record, from its number to its meaning (R166, tables
12-1 and 12-4), and every enumerated value back to its number. A number outside the codes of its
field reads as `none`; the owning block then answers BAD_ARGUMENT. -/

namespace Sys2Proof.Machine

/-! ### Numbers to values -/

def parseHead : Nat → Option Head
  | 0 => some .a
  | 1 => some .b
  | _ => none

/-- An object number below `n`. -/
def parseFin (n k : Nat) : Option (Fin n) := if h : k < n then some ⟨k, h⟩ else none

/-- R166: an object number below `n`, or NONE (or ALL) carried as 255. -/
def parseFinOrNone (n k : Nat) : Option (Option (Fin n)) :=
  if k = 255 then some none else (parseFin n k).map some

def parseYesNo : Nat → Option Bool
  | 0 => some false
  | 1 => some true
  | _ => none

/-- The standard operand of HEAD_START: 0 is refused. -/
def parseStandard : Nat → Option Standard
  | 1 => some .s525
  | 2 => some .s625
  | _ => none

def parseExpect : Nat → Option Expect
  | 0 => some .auto
  | 1 => some (.only .s525)
  | 2 => some (.only .s625)
  | _ => none

def parseLossPolicy : Nat → Option LossPolicy
  | 0 => some .black
  | 1 => some .freeze
  | 2 => some .pattern
  | _ => none

def parseBank : Nat → Option BankName
  | 0 => some .working
  | 1 => some .pending
  | 2 => some .live
  | _ => none

def parsePolarity : Nat → Option Polarity
  | 0 => some .activeHigh
  | 1 => some .activeLow
  | _ => none

def parseAction : Nat → Option TourAction
  | 0 => some .hold
  | 1 => some .resume
  | 2 => some .next
  | 3 => some .restart
  | _ => none

/-- R91, R92: a mask kind with a parameter of that kind's values. -/
def parseMaskKind (kind parameter : Nat) : Option MaskKind :=
  match kind with
  | 0 => (parseFin 16 parameter).map .solid
  | 1 => if parameter = 8 ∨ parameter = 16 then some (.mosaic parameter) else none
  | 2 => if 1 ≤ parameter ∧ parameter ≤ 4 then some (.darken parameter) else none
  | _ => none

/-! ### The groups of a tile record (table 1-1) -/

def parseGeometry (t : TileBlock) : Option Geometry :=
  if t.x ≤ 712 ∧ t.x % 8 = 0 ∧ t.y ≤ 574 ∧ t.y % 2 = 0 ∧ 8 ≤ t.w ∧ t.w ≤ 720 ∧ t.w % 8 = 0
      ∧ 2 ≤ t.h ∧ t.h ≤ 576 ∧ t.h % 2 = 0
  then some { x := t.x, y := t.y, w := t.w, h := t.h } else none

def parseView (t : TileBlock) : Option View :=
  if 1 ≤ t.scale ∧ t.scale ≤ 4 ∧ t.cx ≤ 718 ∧ t.cx % 2 = 0 ∧ t.cy ≤ 575
  then some { scale := t.scale, cx := t.cx, cy := t.cy } else none

def parseStyle (t : TileBlock) : Option Style :=
  match parseFin 16 t.borderColour, parseLossPolicy t.lossPolicy, parseFin 16 t.lossColour with
  | some bc, some lp, some lc =>
      if t.borderWidth = 0 ∨ t.borderWidth = 1 ∨ t.borderWidth = 2 ∨ t.borderWidth = 4
      then some { borderWidth := t.borderWidth, borderColour := bc, lossPolicy := lp, lossColour := lc }
      else none
  | _, _, _ => none

/-- All thirteen fields, each inside table 1-1. -/
def parseTile (t : TileBlock) : Option Tile :=
  match parseGeometry t, parseView t, parseFinOrNone 16 t.source, parseFinOrNone 8 t.tour,
    parseStyle t with
  | some g, some v, some src, some tour, some st =>
      some { geometry := g, view := v, source := src, tour, style := st }
  | _, _, _, _, _ => none

/-- Bit `k` of a group selector. -/
def selects (groups k : Nat) : Bool := groups / 2 ^ k % 2 = 1

/-- R14, R16: the selector names at least one of the five groups, its bits 5-7 are zero, and every
field of a selected group is inside table 1-1. -/
def groupsOk (groups : Nat) (t : TileBlock) : Bool :=
  1 ≤ groups && groups < 32
  && (!selects groups 0 || (parseGeometry t).isSome)
  && (!selects groups 1 || (parseView t).isSome)
  && (!selects groups 2 || (parseFinOrNone 16 t.source).isSome)
  && (!selects groups 3 || (parseFinOrNone 8 t.tour).isSome)
  && (!selects groups 4 || (parseStyle t).isSome)

/-- R16: the old record with the selected groups replaced whole. -/
def Tile.replaced (old : Tile) (groups : Nat) (t : TileBlock) : Tile :=
  { geometry := if selects groups 0 then (parseGeometry t).getD old.geometry else old.geometry
    view := if selects groups 1 then (parseView t).getD old.view else old.view
    source := if selects groups 2 then (parseFinOrNone 16 t.source).getD old.source else old.source
    tour := if selects groups 3 then (parseFinOrNone 8 t.tour).getD old.tour else old.tour
    style := if selects groups 4 then (parseStyle t).getD old.style else old.style }

/-! ### Values to numbers (R166, table 12-1) -/

def codeHead : Head → Nat
  | .a => 0
  | .b => 1

def codeYesNo (b : Bool) : Nat := if b then 1 else 0

/-- An object number, NONE carried as 255. -/
def codeOrNone {n : Nat} : Option (Fin n) → Nat
  | none => 255
  | some k => k.val

def codeStandard : Option Standard → Nat
  | none => 0
  | some .s525 => 1
  | some .s625 => 2

def codeExpect : Expect → Nat
  | .auto => 0
  | .only .s525 => 1
  | .only .s625 => 2

def codeSourceState : SourceState → Nat
  | .off => 0
  | .searching => 1
  | .locked => 2
  | .unstable => 3
  | .lost => 4

def codeLossPolicy : LossPolicy → Nat
  | .black => 0
  | .freeze => 1
  | .pattern => 2

def codePolarity : Polarity → Nat
  | .activeHigh => 0
  | .activeLow => 1

def codeLineState : LineState → Nat
  | .idle => 0
  | .active => 1

def codeRunState : RunState → Nat
  | .running => 0
  | .held => 1

def codeEntryState : EntryState → Nat
  | .asserted => 0
  | .holding _ => 1
  | .latched => 2

def codeReason : RefusalReason → Nat
  | .noTile => 0
  | .listFull => 1
  | .displaced => 2
  | .cancelled => 3

/-- Table 12-6. -/
def codeResult : Result → Nat
  | .ok => 0
  | .badCommand => 1
  | .badArgument => 2
  | .badGeometry => 3
  | .slotFree => 4
  | .slotInUse => 5
  | .tourEmpty => 6
  | .tourInUse => 7
  | .notTouring => 8
  | .headBusy => 9
  | .portInUse => 10
  | .nothingPending => 11
  | .superseded => 12
  | .cancelled => 13
  | .ruleEmpty => 14
  | .noTile => 15
  | .listFull => 16
  | .dataFault => 17

def codeNoticeValue : NoticeValue → Nat
  | .state st => codeSourceState st
  | .top r => codeOrNone r
  | .reason r => codeReason r
  | .step k => k

def codeProc : ProcState → Nat
  | .stopped => 0
  | .idle => 1
  | .fetching => 2
  | .waiting => 3
  | .executing => 4
  | .faulted => 5

def codeHeadState : HeadState → Nat
  | .stopped => 0
  | .running => 1
  | .stopping => 2

def codeFaultKind : BusFaultKind → Nat
  | .noResponse => 1
  | .targetAbort => 2
  | .dataParity => 3
  | .retryLimit => 4

def codePhase : Transfer → Nat
  | .fetch => 1
  | .resultWrite => 2
  | .completionWrite => 3

/-! ### Fields of a record the part writes, little-endian (R166) -/

def byteField (n : Nat) : Byte := BitVec.ofNat 8 n
def halfField (n : Nat) : List Byte := [byteField n, byteField (n / 256)]
def wordField (n : Nat) : List Byte := halfField n ++ halfField (n / 65536)

end Sys2Proof.Machine
end

