-- ==== Sys2Proof/Machine/Flags.lean ====
section
/-! DEFINITION. The interrupt causes and status words of the register window (R152, R169, table
12-8). -/

namespace Sys2Proof.Machine

namespace Causes

/-- Table 12-8, bits of CAUSE and ENABLE. -/
def toWord (c : Causes) : Word :=
  BitVec.ofNat 32 (codeYesNo c.cpl + 2 * codeYesNo c.notice + 4 * codeYesNo c.fault
    + 8 * codeYesNo c.indexError + 16 * codeYesNo c.frameA + 32 * codeYesNo c.frameB)

def ofWord (w : Word) : Causes :=
  { cpl := w.getLsbD 0, notice := w.getLsbD 1, fault := w.getLsbD 2, indexError := w.getLsbD 3
    frameA := w.getLsbD 4, frameB := w.getLsbD 5 }

/-- R152: a written 1 clears its cause, a written 0 leaves it. -/
def acknowledge (c : Causes) (w : Word) : Causes :=
  let m := ofWord w
  { cpl := c.cpl && !m.cpl, notice := c.notice && !m.notice, fault := c.fault && !m.fault
    indexError := c.indexError && !m.indexError, frameA := c.frameA && !m.frameA
    frameB := c.frameB && !m.frameB }

/-- Some cause is set in both. -/
def meets (c e : Causes) : Bool :=
  c.cpl && e.cpl || c.notice && e.notice || c.fault && e.fault || c.indexError && e.indexError
  || c.frameA && e.frameA || c.frameB && e.frameB

end Causes

namespace Port

def raiseIndexError (p : Port) : Port := { p with cause := { p.cause with indexError := true } }

/-- R152: the interrupt pin is active while a cause is set whose enable is also set. -/
def interruptPin (p : Port) : Bool := p.cause.meets p.enable

end Port

/-- R47: the head's frame cause. -/
def Port.raiseFrame (p : Port) : Head → Port
  | .a => { p with cause := { p.cause with frameA := true } }
  | .b => { p with cause := { p.cause with frameB := true } }

/-- Table 12-8: the state word of a head in HEAD_STATUS. -/
def State.headStatus (s : State) (h : Head) : Word :=
  BitVec.ofNat 32 (codeHeadState (s.head h).state + 4 * codeStandard (some (s.head h).standard)
    + 16 * codeYesNo (s.dir h).commit.isSome)

end Sys2Proof.Machine
end

