-- ==== Sys2Proof/Machine/Callups.lean ====
section
/-! DEFINITION. Call-up rules and call-up lists: firing, refresh, insertion, eviction, release, hold
expiry and clearing (08_alarm_lines_and_call_up_rules.md, 09_call_up_lists.md). -/

namespace Sys2Proof.Machine

/-! ### The list (R128, R129) -/

/-- R129: `e` sorts before `f`: a higher priority, or an equal one with a lower arrival number. With both
equal neither sorts before the other, and a new entry goes after the old one (DESIGN CHOICE, log 27). -/
def Entry.before (e f : Entry) : Bool :=
  f.priority < e.priority || e.priority = f.priority && e.arrival.toNat < f.arrival.toNat

/-- The rule of the top entry, or NONE. -/
def topRule : List Entry → Option RuleId
  | [] => none
  | e :: _ => some e.rule

/-- R133: `e` at the position its priority and arrival number give it. -/
def insertEntry (e : Entry) : List Entry → List Entry
  | [] => [e]
  | f :: l => if e.before f then e :: f :: l else f :: insertEntry e l

/-- The position of a rule's entry. -/
def positionOf (r : RuleId) (l : List Entry) : Nat := l.findIdx (fun e => e.rule = r)

/-- R138: replace a list, and raise CALLUP_CHANGE where its top rule changes. -/
def State.replaceList (s : State) (h : Head) (slot : SlotId) (l : List Entry) : State :=
  if topRule l = topRule (s.list h slot) then s.setList h slot l
  else (s.setList h slot l).raise (.callupChange h slot) (.top (topRule l))

/-! ### Firing (R130 to R133) -/

/-- What fires a rule. -/
inductive FireCause where
  | line | software
deriving DecidableEq, Repr

/-- What a firing comes to: the entry's position, or a refusal. -/
inductive Fired where
  | placed (position : Nat)
  | noTile
  | listFull
deriving DecidableEq, Repr

/-- The rule's trigger line is ACTIVE. -/
def State.triggerActive (s : State) (r : Rule) : Bool :=
  match r.line with
  | some l => (s.line l).state = .active
  | none => false

/-- R131, R132: the state of an entry that a firing refreshes or makes. -/
def firedState (c : FireCause) (r : Rule) (active : Bool) : EntryState :=
  if c = .line ∨ active = true then .asserted
  else if r.latch then .latched
  else .holding (r.hold * 1000)

/-- R133: the list with a new entry and the entry it evicts, or none where the new entry would sort
after all of a full list. -/
def insertCapped (e : Entry) (l : List Entry) : Option (List Entry × Option Entry) :=
  if l.length < Config.listRoom then some (insertEntry e l, none)
  else match l.getLast? with
    | some last => if e.before last then some (insertEntry e l.dropLast, some last) else none
    | none => none

/-- R133: an evicted entry is reported DISPLACED. -/
def State.raiseEvicted (s : State) : Option Entry → State
  | some e => s.raise (.callupRefused e.rule) (.reason .displaced)
  | none => s

/-- R130 to R133: rule `n`, with record `r`, fires. -/
def fire (c : FireCause) (n : RuleId) (r : Rule) (s : State) : State × Fired :=
  if (s.liveTile r.head r.slot).isNone then (s, .noTile)
  else
    let l := s.list r.head r.slot
    let st := firedState c r (s.triggerActive r)
    if l.any (fun e => e.rule = n) then
      (s.setList r.head r.slot (l.map (fun e => if e.rule = n then { e with state := st } else e)),
        .placed (positionOf n l))
    else
      match insertCapped { rule := n, priority := r.priority, arrival := s.arrival, state := st } l with
      | none => (s, .listFull)
      | some (l', evicted) =>
          ((({ s with arrival := s.arrival + 1 }).raiseEvicted evicted).replaceList r.head r.slot l',
            .placed (positionOf n l'))

/-- R130, R133: a firing by a line reports its refusal. -/
def fireByLine (n : RuleId) (r : Rule) (s : State) : State :=
  match fire .line n r s with
  | (t, .placed _) => t
  | (t, .noTile) => t.raise (.callupRefused n) (.reason .noTile)
  | (t, .listFull) => t.raise (.callupRefused n) (.reason .listFull)

/-- R119: an assertion of line `l` fires its DEFINED rules, C0 to C31. -/
def lineAsserts (l : LineId) (s : State) : State :=
  (List.finRange 32).foldl (fun t n =>
    match t.rule n with
    | some r => if r.line = some l then fireByLine n r t else t
    | none => t) s

/-! ### Release (R135) -/

/-- R135: an ASSERTED entry after the release of its line: changed in place, or removed. -/
def releasedState (r : Rule) : Option EntryState :=
  if r.latch then some .latched
  else if r.hold = 0 then none
  else some (.holding (r.hold * 1000))

/-- R135: the list of rule `n`'s target after the release. -/
def releasedList (n : RuleId) (r : Rule) (l : List Entry) : List Entry :=
  l.filterMap (fun e =>
    if e.rule = n ∧ e.state = .asserted then (releasedState r).map (fun st => { e with state := st })
    else some e)

/-- R135: a release of line `l` reaches its DEFINED rules, C0 to C31. -/
def lineReleases (l : LineId) (s : State) : State :=
  (List.finRange 32).foldl (fun t n =>
    match t.rule n with
    | some r =>
        if r.line = some l then t.replaceList r.head r.slot (releasedList n r (t.list r.head r.slot))
        else t
    | none => t) s

/-! ### Removing entries -/

/-- R125 step 1: the lists without the entry of rule `n`, and how many entries went. -/
def removeEntryOf (n : RuleId) (s : State) : State × Nat :=
  match s.rule n with
  | some r =>
      let l := s.list r.head r.slot
      (s.replaceList r.head r.slot (l.filter (fun e => e.rule ≠ n)), l.countP (fun e => e.rule = n))
  | none => (s, 0)

/-- A HOLDING entry of the rule whose hold has run out. -/
def Entry.expired (e : Entry) (n : RuleId) : Bool := e.rule = n && e.state = .holding 0

/-- R136: the hold of rule `n`'s entry has reached 0, and the entry is removed. Where no such entry
stands no expiry is taken (log 3, log 6). -/
def execHoldExpiry (n : RuleId) (s : State) : Host.Outcome State Fault Refusal :=
  .next (match s.rule n with
    | some r =>
        if (s.list r.head r.slot).any (fun e => e.expired n) then
          s.replaceList r.head r.slot ((s.list r.head r.slot).filter (fun e => !e.expired n))
        else s
    | none => s)

/-! ### The commands of the ring -/

/-- R124: the record RULE_SET supplies, each field in its range. -/
def parseRule (a : RuleArgs) : Option Rule :=
  match parseFinOrNone 16 a.line, parseHead a.head, parseFin 32 a.slot, parseFin 16 a.source,
    parseYesNo a.latch with
  | some line, some hd, some slot, some src, some latch =>
      if a.priority ≤ 7 ∧ a.hold ≤ 255 then
        some { line, head := hd, slot, source := src, priority := a.priority, hold := a.hold, latch }
      else none
  | _, _, _, _, _ => none

/-- R124, R125. -/
def ruleSet (h : Header) (a : RuleArgs) (s : State) : Reply :=
  match parseFin 32 a.rule, parseRule a with
  | some n, some r =>
      if !h.clean then refuse s .badArgument
      else ((removeEntryOf n s).1.setRule n (some r), .done .ok (removeEntryOf n s).2)
  | _, _ => refuse s .badArgument

/-- R126. -/
def ruleRetire (h : Header) (rule : Nat) (s : State) : Reply :=
  match parseFin 32 rule with
  | some n =>
      if !h.clean then refuse s .badArgument
      else ((removeEntryOf n s).1.setRule n none, .done .ok (removeEntryOf n s).2)
  | none => refuse s .badArgument

/-- R134. -/
def callupTrigger (h : Header) (rule : Nat) (s : State) : Reply :=
  match parseFin 32 rule with
  | some n =>
      if !h.clean then refuse s .badArgument
      else match s.rule n with
        | none => refuse s .ruleEmpty
        | some r =>
            if r.hold = 0 && !r.latch && !s.triggerActive r then refuse s .badArgument
            else match fire .software n r s with
              | (t, .placed k) => (t, .done .ok k)
              | (_, .noTile) => refuse s .noTile
              | (_, .listFull) => refuse s .listFull
  | none => refuse s .badArgument

/-- R137: the entries a clear of one rule, or of ALL (none), takes. -/
def Entry.cleared (e : Entry) (rule : Option RuleId) : Bool :=
  match rule with
  | some n => e.rule = n
  | none => true

/-- R137. -/
def callupClear (h : Header) (head slot rule : Nat) (s : State) : Reply :=
  match parseHead head, parseFin 32 slot, parseFinOrNone 32 rule with
  | some hd, some k, some r =>
      if !h.clean then refuse s .badArgument
      else
        let l := s.list hd k
        (s.replaceList hd k (l.filter (fun e => !e.cleared r)),
          .done .ok (l.countP (fun e => e.cleared r)))
  | _, _, _ => refuse s .badArgument

/-! ### Their rows -/

def execRuleSet (h : Header) (args : RuleArgs) (s : State) : Host.Outcome State Fault Refusal :=
  .next (arrive (.ruleSet h args) (answering h 0x51 (ruleSet h args)) s)

def execRuleRetire (h : Header) (rule : Nat) (s : State) : Host.Outcome State Fault Refusal :=
  .next (arrive (.ruleRetire h rule) (answering h 0x52 (ruleRetire h rule)) s)

def execCallupTrigger (h : Header) (rule : Nat) (s : State) : Host.Outcome State Fault Refusal :=
  .next (arrive (.callupTrigger h rule) (answering h 0x53 (callupTrigger h rule)) s)

def execCallupClear (h : Header) (head slot rule : Nat) (s : State) :
    Host.Outcome State Fault Refusal :=
  .next (arrive (.callupClear h head slot rule)
    (answering h 0x54 (callupClear h head slot rule)) s)

end Sys2Proof.Machine
end

