-- ==== Sys2Proof/Machine/Layout.lean ====
section
/-! DEFINITION. The rank order and the six commands that edit WORKING
(01_tiles_and_the_layout_directory.md). -/

namespace Sys2Proof.Machine

/-! ### Banks and the rank order (R11 to R13) -/

/-- R12: `x` placed at position `r`, those at and after `r` moving down by one. -/
def insertAt {α : Type} (l : List α) (r : Nat) (x : α) : List α := l.take r ++ x :: l.drop r

/-- The rank value that means "bottom". -/
def bottomRank : Nat := 255

namespace Bank

def defined (b : Bank) (slot : SlotId) : Bool := (b.slots.get slot).isSome

/-- The number of DEFINED slots. -/
def count (b : Bank) : Nat := b.slots.count Option.isSome

/-- The position of a slot in the rank order. -/
def rankOf (b : Bank) (slot : SlotId) : Nat := b.order.idxOf slot

/-- R13: the rank order with the slot taken out and the gap closed. -/
def orderWithout (b : Bank) (slot : SlotId) : List SlotId := b.order.filter (fun k => k ≠ slot)

/-- R12, R15: the rank a TILE_PLACE gives. -/
def placeRank (b : Bank) (rank : Nat) : Nat := if rank = bottomRank then b.count else rank

/-- R15: the slot becomes DEFINED at rank `r`. -/
def place (b : Bank) (slot : SlotId) (t : Tile) (r : Nat) : Bank :=
  { slots := b.slots.set slot (some t), order := insertAt b.order r slot }

/-- R13: the rank a move to `rank` gives: past the shortened list's end, its end. -/
def restackRank (b : Bank) (slot : SlotId) (rank : Nat) : Nat :=
  min rank (b.orderWithout slot).length

/-- R18: removal, then insertion in the shortened list. -/
def restack (b : Bank) (slot : SlotId) (rank : Nat) : Bank :=
  { b with order := insertAt (b.orderWithout slot) (b.restackRank slot rank) slot }

/-- R19: the slot becomes FREE and leaves the rank order. -/
def retire (b : Bank) (slot : SlotId) : Bank :=
  { slots := b.slots.set slot none, order := b.orderWithout slot }

/-- R16: a new record in a DEFINED slot, which keeps its rank. -/
def replace (b : Bank) (slot : SlotId) (t : Tile) : Bank :=
  { b with slots := b.slots.set slot (some t) }

end Bank

def State.setWorking (s : State) (h : Head) (b : Bank) : State :=
  s.setDir h { s.dir h with working := b }

/-! ### Checks of R14 -/

/-- R10: the five conditions of the geometry check. -/
def Tile.geometryOk (t : Tile) : Bool :=
  t.geometry.x + t.geometry.w ≤ 720
  && t.geometry.y + t.geometry.h ≤ 576
  && t.view.cx + t.geometry.w * t.view.scale ≤ 720
  && t.view.cy + t.geometry.h * t.view.scale ≤ 576
  && 2 * t.style.borderWidth < t.geometry.w && 2 * t.style.borderWidth < t.geometry.h

/-- R14 step 4: the record names a tour whose state is EMPTY. -/
def Tile.tourEmpty (t : Tile) (s : State) : Bool :=
  match t.tour with
  | some y => (s.tour y).isNone
  | none => false

/-- R14 step 1, TILE_PLACE: 0-32 and at most the number of DEFINED slots, or 255. -/
def placeRankOk (b : Bank) (rank : Nat) : Bool :=
  rank = bottomRank || rank ≤ 32 && rank ≤ b.count

/-- R14 step 1, TILE_RESTACK: 0-31 or 255. -/
def restackRankOk (rank : Nat) : Bool := rank = bottomRank || rank ≤ 31

/-! ### The six commands -/

/-- R15. -/
def tilePlace (h : Header) (head slot rank : Nat) (tile : TileBlock) (s : State) : Reply :=
  match parseHead head, parseFin 32 slot, parseTile tile with
  | some hd, some k, some t =>
      let w := (s.dir hd).working
      if !h.clean || !placeRankOk w rank then refuse s .badArgument
      else if !t.geometryOk then refuse s .badGeometry
      else if w.defined k then refuse s .slotInUse
      else if t.tourEmpty s then refuse s .tourEmpty
      else (s.setWorking hd (w.place k t (w.placeRank rank)), .done .ok (w.placeRank rank))
  | _, _, _ => refuse s .badArgument

/-- R16, R17. -/
def tileModify (h : Header) (head slot groups : Nat) (tile : TileBlock) (s : State) : Reply :=
  match parseHead head, parseFin 32 slot with
  | some hd, some k =>
      let w := (s.dir hd).working
      if !h.clean || !groupsOk groups tile then refuse s .badArgument
      else match w.slots.get k with
        | none => refuse s .slotFree
        | some old =>
            let t := old.replaced groups tile
            if !t.geometryOk then refuse s .badGeometry
            else if selects groups 3 && t.tourEmpty s then refuse s .tourEmpty
            else (s.setWorking hd (w.replace k t), .done .ok (w.rankOf k))
  | _, _ => refuse s .badArgument

/-- R18. -/
def tileRestack (h : Header) (head slot rank : Nat) (s : State) : Reply :=
  match parseHead head, parseFin 32 slot with
  | some hd, some k =>
      let w := (s.dir hd).working
      if !h.clean || !restackRankOk rank then refuse s .badArgument
      else if !w.defined k then refuse s .slotFree
      else (s.setWorking hd (w.restack k rank), .done .ok (w.restackRank k rank))
  | _, _ => refuse s .badArgument

/-- R19. -/
def tileRetire (h : Header) (head slot : Nat) (s : State) : Reply :=
  match parseHead head, parseFin 32 slot with
  | some hd, some k =>
      let w := (s.dir hd).working
      if !h.clean then refuse s .badArgument
      else if !w.defined k then refuse s .slotFree
      else (s.setWorking hd (w.retire k), .done .ok (w.rankOf k))
  | _, _ => refuse s .badArgument

/-- R20. -/
def layoutClear (h : Header) (head : Nat) (s : State) : Reply :=
  match parseHead head with
  | some hd =>
      if !h.clean then refuse s .badArgument
      else (s.setWorking hd .empty, .done .ok (s.dir hd).working.count)
  | none => refuse s .badArgument

/-- R21. -/
def layoutRevert (h : Header) (head : Nat) (s : State) : Reply :=
  match parseHead head with
  | some hd =>
      if !h.clean then refuse s .badArgument
      else (s.setWorking hd (s.dir hd).live, .done .ok (s.dir hd).live.count)
  | none => refuse s .badArgument

/-! ### Their rows -/

def execTilePlace (h : Header) (head slot rank : Nat) (tile : TileBlock) (s : State) :
    Host.Outcome State Fault Refusal :=
  .next (arrive (.tilePlace h head slot rank tile)
    (answering h 0x10 (tilePlace h head slot rank tile)) s)

def execTileModify (h : Header) (head slot groups : Nat) (tile : TileBlock) (s : State) :
    Host.Outcome State Fault Refusal :=
  .next (arrive (.tileModify h head slot groups tile)
    (answering h 0x11 (tileModify h head slot groups tile)) s)

def execTileRestack (h : Header) (head slot rank : Nat) (s : State) :
    Host.Outcome State Fault Refusal :=
  .next (arrive (.tileRestack h head slot rank)
    (answering h 0x12 (tileRestack h head slot rank)) s)

def execTileRetire (h : Header) (head slot : Nat) (s : State) :
    Host.Outcome State Fault Refusal :=
  .next (arrive (.tileRetire h head slot) (answering h 0x13 (tileRetire h head slot)) s)

def execLayoutClear (h : Header) (head : Nat) (s : State) : Host.Outcome State Fault Refusal :=
  .next (arrive (.layoutClear h head) (answering h 0x14 (layoutClear h head)) s)

def execLayoutRevert (h : Header) (head : Nat) (s : State) : Host.Outcome State Fault Refusal :=
  .next (arrive (.layoutRevert h head) (answering h 0x15 (layoutRevert h head)) s)

end Sys2Proof.Machine
end

