-- ==== Sys2Proof/Machine/Tours.lean ====
section
/-! DEFINITION. Tours: the records, the runtimes of touring LIVE tiles, the step decision, the dwell
expiry and TOUR_CONTROL (07_tours.md). -/

namespace Sys2Proof.Machine

/-! ### The step decision (R107 to R109) -/

/-- The steps of a tour in the order R108 looks at them: the next index first, wrapping at the end,
the current step last. -/
def searchOrder (n step : Nat) : List Nat := (List.range n).map (fun k => (step + 1 + k) % n)

/-- R107: the plain next index. -/
def nextIndex (n step : Nat) : Nat := (step + 1) % n

/-- R108: the source's state qualifies its step. -/
def usable : SourceState → Bool
  | .locked => true
  | .unstable => true
  | .off => false
  | .searching => false
  | .lost => false

/-- The source of a step shows LOCKED or UNSTABLE at this moment. -/
def State.stepUsable (s : State) (t : Tour) (k : Nat) : Bool :=
  match t.steps[k]? with
  | some st => usable (s.source st.source).state
  | none => false

/-- R107, R108: the new step, and whether a search found none. -/
def State.decideStep (s : State) (t : Tour) (step : Nat) : Nat × Bool :=
  if t.skipLost then
    match (searchOrder t.steps.length step).find? (s.stepUsable t) with
    | some k => (k, false)
    | none => (nextIndex t.steps.length step, true)
  else (nextIndex t.steps.length step, false)

/-- The full dwell of a step, in milliseconds. -/
def Tour.dwellOf (t : Tour) (k : Nat) : Nat :=
  match t.steps[k]? with
  | some st => st.dwell * 1000
  | none => 0

/-- A runtime brought to a step with that step's full dwell, its state kept. -/
def Runtime.atStep (r : Runtime) (t : Tour) (k : Nat) : Runtime :=
  { r with step := k, remaining := t.dwellOf k }

/-- R107 to R109: the runtime moves on; a search that finds no step raises TOUR_ALL_LOST. -/
def advanceRuntime (h : Head) (slot : SlotId) (t : Tour) (r : Runtime) (s : State) : State :=
  let d := s.decideStep t r.step
  let u := s.setRuntime h slot (some (r.atStep t d.1))
  if d.2 then u.raise (.tourAllLost h slot) (.step d.1) else u

/-- R104: the tour and the runtime of a touring LIVE slot. -/
def State.touring (s : State) (h : Head) (slot : SlotId) : Option (Tour × Runtime) :=
  match s.liveTile h slot with
  | some tile =>
      match tile.tour.bind s.tour, s.runtime h slot with
      | some t, some r => some (t, r)
      | _, _ => none
  | none => none

/-- R107: the dwell of a counting runtime has reached 0. A runtime that stands still, or has time
left, takes no expiry (log 3, log 6). -/
def execDwellExpiry (h : Head) (slot : SlotId) (s : State) : Host.Outcome State Fault Refusal :=
  .next (match s.touring h slot with
    | some (t, r) =>
        if r.state = .running ∧ (s.head h).state ≠ .stopped ∧ s.list h slot = [] ∧ r.remaining = 0
        then advanceRuntime h slot t r s else s
    | none => s)

/-! ### Tour records (R100 to R103) -/

def parseStep (p : Nat × Nat) : Option TourStep :=
  match parseFin 16 p.1 with
  | some src => if 1 ≤ p.2 ∧ p.2 ≤ 255 then some { source := src, dwell := p.2 } else none
  | none => none

/-- Every step, or none where one of them is outside its range. -/
def parseSteps : List (Nat × Nat) → Option (List TourStep)
  | [] => some []
  | p :: ps =>
      match parseStep p, parseSteps ps with
      | some st, some sts => some (st :: sts)
      | _, _ => none

/-- R101: the record TOUR_SET supplies; entries past the step count are not read. -/
def parseTour (a : TourArgs) : Option Tour :=
  match parseYesNo a.skipLost, parseSteps (a.steps.take a.count) with
  | some skip, some steps =>
      if 1 ≤ a.count ∧ a.count ≤ 12 ∧ steps.length = a.count then some { steps, skipLost := skip } else none
  | _, _ => none

/-- R102: a runtime of this head bound to tour `y` is sent to step 0 of the new list. -/
def restartedRuntime (s : State) (y : TourId) (t : Tour) (h : Head) (slot : SlotId) :
    Option Runtime :=
  match s.liveTile h slot, s.runtime h slot with
  | some tile, some r => if tile.tour = some y then some (r.atStep t 0) else some r
  | _, r => r

/-- The LIVE slot binds tour `y` and has a runtime. -/
def bindsRuntime (s : State) (y : TourId) (h : Head) (slot : SlotId) : Bool :=
  match s.liveTile h slot, s.runtime h slot with
  | some tile, some _ => tile.tour = some y
  | _, _ => false

/-- R102: how many runtimes follow tour `y`. -/
def runtimesOf (s : State) (y : TourId) : Nat :=
  (List.finRange 32).countP (bindsRuntime s y .a) + (List.finRange 32).countP (bindsRuntime s y .b)

/-- R101, R102. -/
def tourSet (h : Header) (a : TourArgs) (s : State) : Reply :=
  match parseFin 8 a.tour, parseTour a with
  | some y, some t =>
      if !h.clean then refuse s .badArgument
      else match s.tour y with
        | none => (s.setTour y (some t), .done .ok 0)
        | some _ =>
            ({ s.setTour y (some t) with
                runtimes := { ofA := .ofFn (restartedRuntime s y t .a)
                              ofB := .ofFn (restartedRuntime s y t .b) } },
              .done .ok (runtimesOf s y))
  | _, _ => refuse s .badArgument

/-- R103: the DEFINED slots of a bank whose tile binds tour `y`. -/
def Bank.bindings (b : Bank) (y : TourId) : Nat :=
  b.slots.count (fun o =>
    match o with
    | some tile => tile.tour = some y
    | none => false)

def Directory.bindings (d : Directory) (y : TourId) : Nat :=
  d.working.bindings y + d.live.bindings y
  + (match d.commit with
    | some c => c.bank.bindings y
    | none => 0)

/-- R103: the tile records that bind a tour, across the banks of both heads. -/
def State.bindings (s : State) (y : TourId) : Nat :=
  (s.dir .a).bindings y + (s.dir .b).bindings y

/-- R103. -/
def tourRetire (h : Header) (tour : Nat) (s : State) : Reply :=
  match parseFin 8 tour with
  | some y =>
      if !h.clean then refuse s .badArgument
      else if 1 ≤ s.bindings y then refuse s .tourInUse (s.bindings y)
      else (s.setTour y none, .done .ok (if (s.tour y).isSome then 1 else 0))
  | none => refuse s .badArgument

/-! ### TOUR_CONTROL (R111, R112) -/

/-- R112: an action on the runtime of a slot. -/
def controlRuntime (act : TourAction) (h : Head) (slot : SlotId) (t : Tour) (r : Runtime)
    (s : State) : State :=
  match act with
  | .hold => s.setRuntime h slot (some { r with state := .held })
  | .resume => s.setRuntime h slot (some { r with state := .running })
  | .next => advanceRuntime h slot t r s
  | .restart => s.setRuntime h slot (some (r.atStep t 0))

/-- R112: the step index after the action. -/
def controlledStep (act : TourAction) (t : Tour) (r : Runtime) (s : State) : Nat :=
  match act with
  | .hold => r.step
  | .resume => r.step
  | .next => (s.decideStep t r.step).1
  | .restart => 0

/-- R111, R112. A touring LIVE slot always has a runtime (R104); the arm for one without answers
NOT_TOURING and is not reached (log 20). -/
def tourControl (h : Header) (head slot action : Nat) (s : State) : Reply :=
  match parseHead head, parseFin 32 slot, parseAction action with
  | some hd, some k, some act =>
      if !h.clean then refuse s .badArgument
      else if (s.liveTile hd k).isNone then refuse s .slotFree
      else match s.touring hd k with
        | some (t, r) => (controlRuntime act hd k t r s, .done .ok (controlledStep act t r s))
        | none => refuse s .notTouring
  | _, _, _ => refuse s .badArgument

/-! ### Their rows -/

def execTourSet (h : Header) (args : TourArgs) (s : State) : Host.Outcome State Fault Refusal :=
  .next (arrive (.tourSet h args) (answering h 0x40 (tourSet h args)) s)

def execTourRetire (h : Header) (tour : Nat) (s : State) : Host.Outcome State Fault Refusal :=
  .next (arrive (.tourRetire h tour) (answering h 0x41 (tourRetire h tour)) s)

def execTourControl (h : Header) (head slot action : Nat) (s : State) :
    Host.Outcome State Fault Refusal :=
  .next (arrive (.tourControl h head slot action)
    (answering h 0x42 (tourControl h head slot action)) s)

end Sys2Proof.Machine
end

