-- ==== Sys2Proof/Machine/Commit.lean ====
section
/-! DEFINITION. Committing a layout: LAYOUT_COMMIT, LAYOUT_CANCEL, the application of a commit and the
carry-over to tour runtimes and call-up lists (02_committing_a_layout.md). -/

namespace Sys2Proof.Machine

/-! ### Carry-over (R31, R32) -/

/-- R31: the messages to the tour engine. -/
inductive TourMessage where
  | none
  | keep
  | drop
  | create (tour : TourId)
  | dropCreate (tour : TourId)
deriving DecidableEq, Repr

/-- R31: the messages to the call-up unit. -/
inductive CallupMessage where
  | none
  | keep
  | cancel
deriving DecidableEq, Repr

/-- R31: the table's column for the tour engine. -/
def tourMessage : Option Tile → Option Tile → TourMessage
  | .none, .none => .none
  | .none, .some new =>
      match new.tour with
      | .none => .none
      | .some y => .create y
  | .some old, .some new =>
      match old.tour, new.tour with
      | .none, .none => .none
      | .none, .some y => .create y
      | .some x, .some y => if x = y then .keep else .dropCreate y
      | .some _, .none => .drop
  | .some old, .none =>
      match old.tour with
      | .none => .none
      | .some _ => .drop

/-- R31: the table's column for the call-up unit. -/
def callupMessage : Option Tile → Option Tile → CallupMessage
  | .none, _ => .none
  | .some _, .some _ => .keep
  | .some _, .none => .cancel

/-- R32, R105: CREATE (Y): step 0 with its full dwell, RUNNING. -/
def createdRuntime (s : State) (y : TourId) : Option Runtime :=
  (s.tour y).map (fun t => { step := 0, remaining := t.dwellOf 0, state := .running })

/-- R32: a slot's runtime after its message. -/
def carriedRuntime (s : State) (old new : Bank) (h : Head) (slot : SlotId) : Option Runtime :=
  match tourMessage (old.slots.get slot) (new.slots.get slot) with
  | .none => s.runtime h slot
  | .keep => s.runtime h slot
  | .drop => none
  | .create y => createdRuntime s y
  | .dropCreate y => createdRuntime s y

/-- R32, R139: CANCEL: every entry goes from the top, each with CALLUP_REFUSED, and the top change is
reported. -/
def cancelList (h : Head) (slot : SlotId) (s : State) : State :=
  ((s.list h slot).foldl (fun t e => t.raise (.callupRefused e.rule) (.reason .cancelled)) s).replaceList
    h slot []

/-- R31, R32: the carry-over of one head, from its old LIVE bank to its new one. -/
def carryOver (h : Head) (old new : Bank) (s : State) : State :=
  (List.finRange 32).foldl (fun t slot =>
      match callupMessage (old.slots.get slot) (new.slots.get slot) with
      | .none => t
      | .keep => t
      | .cancel => cancelList h slot t)
    { s with runtimes := s.runtimes.set h (.ofFn (carriedRuntime s old new h)) }

/-! ### Application (R26 to R28) -/

/-- The code of LAYOUT_COMMIT, which the completion of a commit record carries (R168). -/
def commitCode : Nat := 0x16

/-- R44, R165: a slot that an application makes DEFINED has a latched shown source of NONE until the
next frame start; the others keep what was latched for them. -/
def shownAfter (old new : Bank) (shown : Table 32 (Option SourceId)) : Table 32 (Option SourceId) :=
  .ofFn (fun slot =>
    if (old.slots.get slot).isNone && (new.slots.get slot).isSome then none else shown.get slot)

/-- R44: the frame view after an application. -/
def FrameView.applied (v : FrameView) (old new : Bank) : FrameView :=
  { v with shown := shownAfter old new v.shown }

/-- R26 steps 1 and 2: `new` becomes LIVE and the carry-over is delivered. -/
def applyBank (h : Head) (new : Bank) (s : State) : State :=
  let t := s.setHead h { s.head h with view := (s.head h).view.applied (s.dir h).live new }
  carryOver h (s.dir h).live new (t.setDir h { s.dir h with live := new })

/-- R28: the completion of a deferred commit's application. -/
def commitAnswer (c : CommitRecord) (detail : Nat) (p : Port) : Port :=
  if c.answered = true ∧ c.quiet = false then
    p.enqueue { tag := c.tag, code := commitCode, result := .ok, detail, detail2 := 0 }
  else p

/-- R26, R27: the pending commit of a head, if any, is applied; its record ends. -/
def applyCommit (h : Head) (detail : Nat) (s : State) : State :=
  match (s.dir h).commit with
  | none => s
  | some c =>
      let t := applyBank h c.bank (s.setDir h { s.dir h with commit := none })
      t.setPort (commitAnswer c detail t.port)

/-- R25, R29: a pending commit ends unapplied, with its completion where it is ANSWERED. -/
def endCommit (h : Head) (r : Result) (s : State) : State :=
  match (s.dir h).commit with
  | none => s
  | some c =>
      let t := s.setDir h { s.dir h with commit := none }
      if c.answered then
        t.setPort (t.port.enqueue
          { tag := c.tag, code := commitCode, result := r, detail := 0, detail2 := 0 })
      else t

/-! ### The commands -/

/-- R24, R25, R27. -/
def layoutCommit (h : Header) (head : Nat) (s : State) : Reply :=
  match parseHead head with
  | some hd =>
      if !h.clean then refuse s .badArgument
      else
        let bank := (s.dir hd).working
        let t := endCommit hd .superseded s
        if (s.head hd).state = .stopped then (applyBank hd bank t, .done .ok 0)
        else
          (t.setDir hd { t.dir hd with
              commit := some { bank, tag := h.tag, quiet := h.quiet, answered := true } },
            .deferred)
  | none => refuse s .badArgument

/-- R29: 1 where an ANSWERED commit was withdrawn, 0 where an UNANSWERED one was. -/
def cancelDetail (c : CommitRecord) : Nat := if c.answered then 1 else 0

/-- R29. -/
def layoutCancel (h : Header) (head : Nat) (s : State) : Reply :=
  match parseHead head with
  | some hd =>
      if !h.clean then refuse s .badArgument
      else match (s.dir hd).commit with
        | none => refuse s .nothingPending
        | some c => (endCommit hd .cancelled s, .done .ok (cancelDetail c))
  | none => refuse s .badArgument

def execLayoutCommit (h : Header) (head : Nat) (s : State) : Host.Outcome State Fault Refusal :=
  .next (arrive (.layoutCommit h head) (answering h commitCode (layoutCommit h head)) s)

def execLayoutCancel (h : Header) (head : Nat) (s : State) : Host.Outcome State Fault Refusal :=
  .next (arrive (.layoutCancel h head) (answering h 0x17 (layoutCancel h head)) s)

end Sys2Proof.Machine
end

