-- ==== Sys2Proof/Machine/Heads.lean ====
section
/-! DEFINITION. The heads: starting and stopping, palette and background, frame start and frame end
(03_output_heads_and_composition.md, sections 3.1, 3.2 and 3.4). -/

namespace Sys2Proof.Machine

/-! ### The frame view (R43 to R46) -/

/-- R44: the source a LIVE tile shows, from the first of call-up list, tour runtime and source field
that applies. -/
def shownByTile (s : State) (h : Head) (slot : SlotId) (tile : Tile) : Option SourceId :=
  match s.list h slot with
  | e :: _ => (s.rule e.rule).map (fun r => r.source)
  | [] =>
      match tile.tour.bind s.tour, s.runtime h slot with
      | some t, some r => (t.steps[r.step]?).map (fun st => st.source)
      | _, _ => tile.source

/-- R43 step 2: NONE for a FREE slot. -/
def shownSource (s : State) (h : Head) (slot : SlotId) : Option SourceId :=
  (s.liveTile h slot).bind (shownByTile s h slot)

def shownSources (s : State) (h : Head) : Table 32 (Option SourceId) := .ofFn (shownSource s h)

/-- The source is the shown source of some slot. -/
def shows (shown : Table 32 (Option SourceId)) (i : SourceId) : Bool := shown.cells.contains (some i)

/-- R43 steps 2 and 3, R45, R94: what the head latches. -/
def latchView (s : State) (h : Head) : FrameView :=
  let shown := shownSources s h
  { shown
    states := .ofFn (fun i => if shows shown i then some (s.source i).state else none)
    masks := .ofFn (fun i => if shows shown i then some (s.masks.get i) else none)
    palette := s.palette
    background := (s.head h).background }

/-- R43 step 4, R46, R86: the newest page of each distinct shown source. -/
def takeClaims (s : State) (h : Head) : Table 16 (Option PageId) :=
  .ofFn (fun i => if shows (shownSources s h) i then (s.page i).newest else none)

def noClaims : Table 16 (Option PageId) := .fill 16 none

/-- R39: the number of the frame the next frame start begins. -/
def nextFrame (s : State) (h : Head) : Word := (s.head h).frameNumber + 1

/-- R43 steps 2 to 5, on the state the application has left; with the first line of its first frame the
port leaves the idle level (R59). -/
def beginFrame (h : Head) (s : State) : State :=
  let t := s.setHead h { s.head h with
    frameNumber := nextFrame s h, inFlight := true, sending := true
    view := latchView s h, claims := takeClaims s h }
  t.setPort (t.port.raiseFrame h)

/-- R43. A head that is not RUNNING, or that has a frame in flight, takes no frame start (R39, R43,
log 3). -/
def execFrameStart (h : Head) (s : State) : Host.Outcome State Fault Refusal :=
  .next (
    if (s.head h).state = .running ∧ (s.head h).inFlight = false then
      (beginFrame h (applyCommit h (nextFrame s h).toNat s)).settled
    else s)

/-! ### Frame end and stop completion (R48, R27, R41) -/

/-- R48, R86: the head releases its read claims and has no frame in flight. -/
def releaseClaims (h : Head) (s : State) : State :=
  s.setHead h { s.head h with inFlight := false, claims := noClaims }

/-- R27, R41, R59: the head becomes STOPPED, its port returns to the idle level, and a pending commit is
applied with detail 0. -/
def completeStop (h : Head) (s : State) : State :=
  let t := releaseClaims h s
  applyCommit h 0 (t.setHead h { t.head h with state := .stopped, sending := false })

/-- R48. A head with no frame in flight takes no frame end (log 3). -/
def execFrameEnd (h : Head) (s : State) : Host.Outcome State Fault Refusal :=
  .next (
    if (s.head h).inFlight = true ∧ (s.head h).state ≠ .stopped then
      (if (s.head h).state = .stopping then completeStop h s else releaseClaims h s).settled
    else s)

/-! ### The commands -/

/-- R40. -/
def headStart (h : Header) (head standard : Nat) (s : State) : Reply :=
  match parseHead head, parseStandard standard with
  | some hd, some std =>
      if !h.clean then refuse s .badArgument
      else if (s.head hd).state ≠ .stopped then refuse s .headBusy
      else
        (s.setHead hd { s.head hd with state := .running, standard := std, frameNumber := 0 },
          .done .ok 0)
  | _, _ => refuse s .badArgument

/-- R41. -/
def headStop (h : Header) (head : Nat) (s : State) : Reply :=
  match parseHead head with
  | some hd =>
      if !h.clean then refuse s .badArgument
      else match (s.head hd).state with
        | .running =>
            if (s.head hd).inFlight then
              (s.setHead hd { s.head hd with state := .stopping },
                .done .ok (s.head hd).frameNumber.toNat)
            else (completeStop hd s, .done .ok 0)
        | .stopping => (s, .done .ok 0)
        | .stopped => (s, .done .ok 0)
  | none => refuse s .badArgument

/-- R56. -/
def paletteSet (h : Header) (index y cb cr : Nat) (s : State) : Reply :=
  match parseFin 16 index with
  | some k =>
      if !h.clean then refuse s .badArgument
      else
        (s.setColour k { y := byteField y, cb := byteField cb, cr := byteField cr }, .done .ok 0)
  | none => refuse s .badArgument

/-- R57. -/
def headBackground (h : Header) (head colour : Nat) (s : State) : Reply :=
  match parseHead head, parseFin 16 colour with
  | some hd, some k =>
      if !h.clean then refuse s .badArgument
      else (s.setHead hd { s.head hd with background := k }, .done .ok 0)
  | _, _ => refuse s .badArgument

def execHeadStart (h : Header) (head standard : Nat) (s : State) :
    Host.Outcome State Fault Refusal :=
  .next (arrive (.headStart h head standard) (answering h 0x20 (headStart h head standard)) s)

def execHeadStop (h : Header) (head : Nat) (s : State) : Host.Outcome State Fault Refusal :=
  .next (arrive (.headStop h head) (answering h 0x21 (headStop h head)) s)

def execPaletteSet (h : Header) (index y cb cr : Nat) (s : State) :
    Host.Outcome State Fault Refusal :=
  .next (arrive (.paletteSet h index y cb cr)
    (answering h 0x22 (paletteSet h index y cb cr)) s)

def execHeadBackground (h : Header) (head colour : Nat) (s : State) :
    Host.Outcome State Fault Refusal :=
  .next (arrive (.headBackground h head colour)
    (answering h 0x23 (headBackground h head colour)) s)

end Sys2Proof.Machine
end

