-- ==== Sys2Proof/Machine/Lines.lean ====
section
/-! DEFINITION. The alarm lines: active level, debounce, assertion and release, and LINE_SET
(08_alarm_lines_and_call_up_rules.md). -/

namespace Sys2Proof.Machine

/-- R116: the active level, asserted or not: that of the last sample under the line's polarity (log 23). -/
def LineRecord.asserted (r : LineRecord) : Bool :=
  match r.polarity with
  | .activeHigh => r.rawHigh
  | .activeLow => !r.rawHigh

/-- R118: the line stops its timer and compares its active level with its state. -/
def lineCompares (l : LineId) (s : State) : State :=
  let r := s.line l
  match r.state, r.asserted with
  | .idle, true => lineAsserts l (s.setLine l { r with timer := none, state := .active })
  | .active, false => lineReleases l (s.setLine l { r with timer := none, state := .idle })
  | .idle, false => s.setLine l { r with timer := none }
  | .active, true => s.setLine l { r with timer := none }

/-- R117, R120 step 4: the debounce time begins; with debounce 0 the line compares at once. -/
def startDebounce (l : LineId) (s : State) : State :=
  let r := s.line l
  if r.debounce = 0 then lineCompares l s
  else s.setLine l { r with timer := some (r.debounce * 10) }

/-- R116, R117: the line samples its pin. A sample that differs from the one before is a level change of
an enabled line; a line not enabled reads it too, and takes it as no event. -/
def takeSample (l : LineId) (s : State) : State :=
  let r := s.line l
  if r.pinHigh = r.rawHigh then s
  else
    let t := s.setLine l { r with rawHigh := r.pinHigh }
    if r.enabled then startDebounce l t else t

/-- R116: the millisecond of line `l` ends. A line that has not taken its sample of it takes it now, and
the next millisecond's sample is still to be taken. -/
def endMillisecond (l : LineId) (s : State) : State :=
  let t := s.setLine l { s.line l with sampled := false }
  if (s.line l).sampled then t else takeSample l t

/-- R116, R117: the pin goes to a level. Where the line's sample of the millisecond falls here, and has
not been taken before, it is taken; any other change is left to the sample that follows it (log 23). -/
def execLevelChange (l : LineId) (change : PinChange) (s : State) : Host.Outcome State Fault Refusal :=
  .next (
    if change.atSample && !(s.line l).sampled then
      takeSample l (s.setLine l { s.line l with pinHigh := change.high, sampled := true })
    else s.setLine l { s.line l with pinHigh := change.high })

/-- R118: the debounce timer of an enabled line has run out. Otherwise no expiry is taken (log 3,
log 6). -/
def execDebounceExpiry (l : LineId) (s : State) : Host.Outcome State Fault Refusal :=
  .next (if (s.line l).enabled = true ∧ (s.line l).timer = some 0 then lineCompares l s else s)

/-- R120 steps 1 and 2: the standing alarm is released. -/
def endAlarm (l : LineId) (s : State) : State :=
  if (s.line l).state = .active then
    (lineReleases l s).setLine l { (lineReleases l s).line l with state := .idle }
  else s

/-- R120, R121. -/
def lineSet (h : Header) (line enabled polarity debounce : Nat) (s : State) : Reply :=
  match parseFin 16 line, parseYesNo enabled, parsePolarity polarity with
  | some l, some en, some pol =>
      if !h.clean || !(debounce ≤ 255) then refuse s .badArgument
      else
        let t := endAlarm l s
        let u := t.setLine l
          { t.line l with enabled := en, polarity := pol, debounce := debounce, timer := none }
        (if en then startDebounce l u else u,
          .done .ok (if (s.line l).state = .active then 1 else 0))
  | _, _, _ => refuse s .badArgument

def execLineSet (h : Header) (line enabled polarity debounce : Nat) (s : State) :
    Host.Outcome State Fault Refusal :=
  .next (arrive (.lineSet h line enabled polarity debounce)
    (answering h 0x50 (lineSet h line enabled polarity debounce)) s)

end Sys2Proof.Machine
end

