-- ==== Sys2Proof/Machine/Masks.lean ====
section
/-! DEFINITION. The mask table and its two commands (06_privacy_masks.md, section 6.1). -/

namespace Sys2Proof.Machine

/-- R92 step 1: the mask record MASK_SET supplies, each field in its range. -/
def parseMask (a : MaskArgs) : Option Mask :=
  match parseMaskKind a.kind a.parameter with
  | some kind =>
      if a.x ≤ 718 ∧ a.x % 2 = 0 ∧ a.y ≤ 575 ∧ 2 ≤ a.w ∧ a.w ≤ 720 ∧ a.w % 2 = 0
          ∧ 1 ≤ a.h ∧ a.h ≤ 576
      then some { x := a.x, y := a.y, w := a.w, h := a.h, kind } else none
  | none => none

/-- R92 step 2. -/
def Mask.geometryOk (m : Mask) : Bool := m.x + m.w ≤ 720 && m.y + m.h ≤ 576

/-- How many of a source's slots hold a mask. -/
def masksHeld (m : MaskSlots) : Nat := m.count Option.isSome

/-- R92. -/
def maskSet (h : Header) (a : MaskArgs) (s : State) : Reply :=
  match parseFin 16 a.source, parseFin 4 a.slot, parseMask a with
  | some i, some k, some m =>
      if !h.clean then refuse s .badArgument
      else if !m.geometryOk then refuse s .badGeometry
      else
        let slots := (s.masks.get i).set k (some m)
        (s.setMasks i slots, .done .ok (masksHeld slots))
  | _, _, _ => refuse s .badArgument

/-- R93: the slots after one (or, with none, ALL) is emptied. -/
def clearedSlots (m : MaskSlots) : Option MaskId → MaskSlots
  | some k => m.set k none
  | none => .fill 4 none

/-- R93. -/
def maskClear (h : Header) (source slot : Nat) (s : State) : Reply :=
  match parseFin 16 source, parseFinOrNone 4 slot with
  | some i, some k =>
      if !h.clean then refuse s .badArgument
      else
        let old := s.masks.get i
        (s.setMasks i (clearedSlots old k), .done .ok (masksHeld old - masksHeld (clearedSlots old k)))
  | _, _ => refuse s .badArgument

def execMaskSet (h : Header) (args : MaskArgs) (s : State) : Host.Outcome State Fault Refusal :=
  .next (arrive (.maskSet h args) (answering h 0x38 (maskSet h args)) s)

def execMaskClear (h : Header) (source slot : Nat) (s : State) : Host.Outcome State Fault Refusal :=
  .next (arrive (.maskClear h source slot) (answering h 0x39 (maskClear h source slot)) s)

end Sys2Proof.Machine
end

