-- ==== Sys2Proof/Machine/FrameStore.lean ====
section
/-! DEFINITION. The frame store: pages in the SDRAM, the writer, completion, discard, abandonment and
clearing (05_frame_pages_and_read_claims.md), and the placement of incoming lines (R64). -/

namespace Sys2Proof.Machine

/-! ### Page roles (R79, R80, R86) -/

/-- R79, R86: the head is a holder of the page. -/
def State.holds (s : State) (h : Head) (i : SourceId) (p : PageId) : Bool :=
  (s.head h).claims.get i = some p

/-- R80: a page that is neither newest nor held, which a writer may take (R81). -/
def State.choosable (s : State) (i : SourceId) (p : PageId) : Bool :=
  (s.page i).newest ≠ some p && !s.holds .a i p && !s.holds .b i p

/-- R81 step 2: the lowest-numbered page a writer may take. -/
def State.choosePage (s : State) (i : SourceId) : Option PageId :=
  (List.finRange 4).find? (s.choosable i)

/-! ### The SDRAM (R64, R79, log 7) -/

/-- Where a page begins. -/
def pageBase (i : SourceId) (p : PageId) : Nat := (i.val * 4 + p.val) * Config.pageBytes

/-- Where a stored line of a page begins. -/
def lineAddress (i : SourceId) (p : PageId) (line : Nat) : Nat :=
  pageBase i p + line * Config.lineBytes

/-- R64: `n` bytes of black from a pair's start: Cb 128, Y 16, Cr 128, Y 16. -/
def blackBytes (n : Nat) : List Byte := (List.replicate (n / 2) [(128 : Byte), 16]).flatten

/-- R64, horizontally: the bytes of an incoming line that are stored, from stored sample 0. A line
that brings fewer than 1440 bytes stores those it brings (log 16). -/
def placedBytes (hStart : Nat) (bytes : List Byte) : List Byte :=
  (bytes.take Config.lineBytes).drop (2 * hStart)

/-- R64: store one line, with the black of its last `hStart` samples. -/
def storeLine (m : Memory) (a hStart : Nat) (bytes : List Byte) : Memory :=
  Memory.writeBytes (Memory.writeBytes m a (placedBytes hStart bytes))
    (a + Config.lineBytes - 2 * hStart) (blackBytes (2 * hStart))

/-- R64: frame line of field line `n`: even lines for a top field, odd for a bottom field. -/
def frameLine (top : Bool) (n : Nat) : Nat := if top then 2 * n else 2 * n + 1

/-- R64, R82: incoming active line `k` of the field in progress goes into the writer page, if there is
a writer and the line has a place. -/
def storeActiveLine (i : SourceId) (top : Bool) (k : Nat) (bytes : List Byte) (s : State) : State :=
  match (s.page i).writer with
  | some w =>
      if (s.source i).vStart ≤ k ∧ k - (s.source i).vStart < w.height / 2 then
        s.setStore (storeLine s.store
          (lineAddress i w.page (frameLine top (k - (s.source i).vStart))) (s.source i).hStart bytes)
      else s
  | none => s

/-- R82: stored lines for which a field of `k` active lines brings none are filled with black. -/
def fillField (i : SourceId) (top : Bool) (k : Nat) (s : State) : State :=
  match (s.page i).writer with
  | some w =>
      let first := k - (s.source i).vStart
      s.setStore ((List.range' first (w.height / 2 - first)).foldl (fun m n =>
        Memory.writeBytes m (lineAddress i w.page (frameLine top n)) (blackBytes Config.lineBytes)) s.store)
  | none => s

/-! ### The writer's events (R81 to R85) -/

/-- R79, R80: the stored heights once the writer has ended: its page's is that of the frame last written
into it, completed, discarded or abandoned (a frame abandoned part-way counts: log 26). -/
def PageTable.writtenHeights (t : PageTable) : Table 4 Nat :=
  match t.writer with
  | some w => t.heights.set w.page w.height
  | none => t.heights

/-- R83, R84: the writer ends without completion, discarded or abandoned. -/
def PageTable.abandoned (t : PageTable) : PageTable :=
  { t with writer := none, heights := t.writtenHeights }

/-- R85: the newest pointer becomes none. -/
def PageTable.cleared (t : PageTable) : PageTable := { t with newest := none }

/-- R81: the height a writer stores. -/
def writerHeight : Option Standard → Nat
  | some .s525 => Config.frameLines .s525
  | some .s625 => Config.frameLines .s625
  | none => Config.frameLines .s525

/-- R81: a source in this state is written. -/
def writes : SourceState → Bool
  | .locked => true
  | .unstable => true
  | .off => false
  | .searching => false
  | .lost => false

/-- R81: a top-field start: any writer's frame is abandoned, and in LOCKED or UNSTABLE a new writer
starts. -/
def topFieldStart (i : SourceId) (s : State) : State :=
  let t := (s.page i).abandoned
  if writes (s.source i).state then
    s.setPage i { t with writer := (s.choosePage i).map (fun p =>
      { page := p, height := writerHeight (s.source i).standard, top := none }) }
  else s.setPage i t

/-- R83: completion or discard at a bottom-field end. -/
def PageTable.bottomEnd (t : PageTable) (good : Bool) : PageTable :=
  match t.writer with
  | some w =>
      if w.top = some true ∧ good = true then
        { t.abandoned with newest := some w.page, count := t.count + 1 }
      else t.abandoned
  | none => t

/-- R82: the top verdict. -/
def PageTable.topEnd (t : PageTable) (good : Bool) : PageTable :=
  { t with writer := t.writer.map (fun w => { w with top := some good }) }

/-- R66, R83 to R85: the frame store's part of a field end: the verdict's state before and after. -/
def PageTable.fieldEnd (t : PageTable) (before after : SourceState) (top good : Bool) : PageTable :=
  if !writes after then t.abandoned
  else
    let u := if before = .searching ∧ after = .locked then t.cleared else t
    if top then u.topEnd good else u.bottomEnd good

end Sys2Proof.Machine
end

