-- ==== Sys2Proof/Machine/Sources.lean ====
section
/-! DEFINITION. The lock monitor: timing codes, fields, verdicts, the lock state machine, the loss timer
and the source commands (04_sources_and_the_lock_monitor.md). -/

namespace Sys2Proof.Machine

/-! ### Judging a field (R65) -/

/-- R65: the measured standard of a count of active lines. -/
def measured (lines : Nat) : Option Standard :=
  if 240 ≤ lines ∧ lines ≤ 244 then some .s525
  else if 286 ≤ lines ∧ lines ≤ 290 then some .s625
  else none

/-- R65 condition 4: the measured standard against the required one. -/
def requiredMet (r : SourceRecord) (std : Standard) : Bool :=
  match r.state with
  | .locked => r.standard = some std
  | .unstable => r.standard = some std
  | .off | .searching | .lost =>
      match r.expect with
      | .auto => true
      | .only e => e = std

/-- R65: the field is good. -/
def goodField (r : SourceRecord) (f : FieldInProgress) : Bool :=
  f.wellFormed && r.lastBit ≠ some f.bit
  && (match measured f.lines with
    | some std => requiredMet r std
    | none => false)

/-! ### The lock state machine (R69 to R72) -/

/-- R69: a good field while SEARCHING. -/
def searchingGood (p : LockParams) (r : SourceRecord) (std : Option Standard) : SourceRecord :=
  let run := if r.candidate = none ∨ r.candidate = std then r.goodRun + 1 else 1
  if p.lockCount ≤ run then
    { r with goodRun := run, candidate := std, state := .locked, standard := std, badRun := 0 }
  else { r with goodRun := run, candidate := std }

/-- R71: a good field while UNSTABLE. -/
def unstableGood (p : LockParams) (r : SourceRecord) : SourceRecord :=
  if p.lockCount ≤ r.goodRun + 1 then
    { r with goodRun := r.goodRun + 1, badRun := 0, state := .locked }
  else { r with goodRun := r.goodRun + 1 }

/-- R71: a bad field while UNSTABLE. -/
def unstableBad (p : LockParams) (r : SourceRecord) : SourceRecord :=
  if p.unstableLimit ≤ r.badRun + 1 then { r with goodRun := 0, badRun := 0, state := .lost }
  else { r with goodRun := 0, badRun := r.badRun + 1 }

/-- R69 to R72: the record after a verdict, `std` the field's measured standard. -/
def applyVerdict (p : LockParams) (r : SourceRecord) (good : Bool) (std : Option Standard) :
    SourceRecord :=
  match r.state, good with
  | .searching, true => searchingGood p r std
  | .searching, false => { r with goodRun := 0 }
  | .locked, true => r
  | .locked, false => { r with state := .unstable, badRun := 1, goodRun := 0 }
  | .unstable, true => unstableGood p r
  | .unstable, false => unstableBad p r
  | .lost, true =>
      { r with state := .searching, goodRun := 1, badRun := 0, candidate := std, standard := none }
  | .lost, false => r
  | .off, _ => r

/-- R73: a new record for a source; a change of state raises SOURCE_STATE. -/
def State.changeSource (s : State) (i : SourceId) (r : SourceRecord) : State :=
  if r.state = (s.source i).state then s.setSource i r
  else (s.setSource i r).raise (.sourceState i) (.state r.state)

/-! ### Fields of the stream (R62, R63) -/

/-- R63: a top field, from its field bit and field_swap. -/
def isTop (r : SourceRecord) (bit : Bool) : Bool := bit = r.fieldSwap

/-- R65, R66: the end of the field in progress, if any: its missing lines are filled, it is judged,
and the verdict reaches the lock state and the frame store. -/
def fieldEnd (i : SourceId) (s : State) : State :=
  let r := s.source i
  match r.field with
  | none => s
  | some f =>
      let top := isTop r f.bit
      let good := goodField r f
      let r' := { applyVerdict s.params r good (measured f.lines) with
        lastBit := some f.bit, field := none }
      let t := fillField i top f.lines s
      (t.setPage i ((t.page i).fieldEnd r.state r'.state top good)).changeSource i r'

/-- R62, R63: a timing code closes the active line that was open, which is well formed when the code
is an end-of-active code and 1440 bytes came before it; the 291st line forces the field end. -/
def closeLine (i : SourceId) (endOfActive : Bool) (bytes : List Byte) (s : State) : State :=
  let r := s.source i
  if r.lineOpen then
    match r.field with
    | some f =>
        let ok := endOfActive && bytes.length = Config.lineBytes
        let g : FieldInProgress :=
          { f with lines := f.lines + 1, wellFormed := f.wellFormed && ok }
        let t := (storeActiveLine i (isTop r f.bit) f.lines bytes s).setSource i
          { r with lineOpen := false, field := some g }
        if Config.forcedFieldLines ≤ g.lines then fieldEnd i t else t
    | none => s.setSource i { r with lineOpen := false }
  else s

/-- R63: a code with the vertical-blank flag set ends the field in progress and arms the next field
start. -/
def blankCode (i : SourceId) (s : State) : State :=
  let t := fieldEnd i s
  t.setSource i { t.source i with sawBlank := true }

/-- R63, R66: a start-of-active code with the vertical-blank flag clear begins an active line, and the
first such code after a vertical-blank code begins a field. -/
def openLine (i : SourceId) (bit : Bool) (s : State) : State :=
  let r := s.source i
  if r.sawBlank = true ∧ r.field = none then
    let t := s.setSource i
      { r with lineOpen := true, sawBlank := false
               field := some { bit, lines := 0, wellFormed := true } }
    if isTop r bit then topFieldStart i t else t
  else s.setSource i { r with lineOpen := true }

/-- R170: the three flags an input port reads of a flag byte. -/
def fieldFlag (b : Byte) : Bool := b.getLsbD 6
def blankFlag (b : Byte) : Bool := b.getLsbD 5
def endFlag (b : Byte) : Bool := b.getLsbD 4

/-- R62, R63, R67: a timing code on the port of source `i`, after `bytes` since the code before. -/
def takeCode (i : SourceId) (flags : Byte) (bytes : List Byte) (s : State) : State :=
  let t := closeLine i (endFlag flags) bytes
    (s.setSource i { s.source i with lossTimer := some s.params.lossTimeout })
  if blankFlag flags then blankCode i t
  else if endFlag flags then t
  else openLine i (fieldFlag flags) t

/-- R61: the source that owns an input port. -/
def State.owner (s : State) (p : PortId) : Option SourceId :=
  (List.finRange 16).find? (fun i => (s.source i).state ≠ .off && (s.source i).port = p)

/-- R62: how much of the sequence 255, 0, 0 the last bytes of a stream are. -/
inductive CodeMatch where
  | none | one | two | three
deriving DecidableEq, Repr

/-- R62: the match after one more byte, where the sequence is not yet whole. -/
def CodeMatch.next (m : CodeMatch) (b : Byte) : CodeMatch :=
  if b = 255 then .one
  else if b = 0 then
    match m with
    | .one => .two
    | .two => .three
    | .none | .three => .none
  else .none

/-- R62: the timing codes of a stream, each its flag byte with the bytes between it and the code before.
`before` holds the bytes read since that code, last first, and `m` what they end in. -/
def readCodes (m : CodeMatch) (before : List Byte) : List Byte → List (List Byte × Byte)
  | [] => []
  | b :: rest =>
      if m = .three then ((before.drop 3).reverse, b) :: readCodes .none [] rest
      else readCodes (m.next b) (b :: before) rest

/-- R62: the codes that an input port recognises in the stretch of its stream that `bytes` and a code with
flag byte `flags` make. -/
def codesIn (bytes : List Byte) (flags : Byte) : List (List Byte × Byte) :=
  readCodes .none [] (bytes ++ [255, 0, 0, flags])

/-- R61, R62, R67: the codes of the stretch are taken in turn (log 30). A port that no source owns is not
read. -/
def execTimingCode (p : PortId) (flags : Byte) (bytes : List Byte) (s : State) :
    Host.Outcome State Fault Refusal :=
  .next (match s.owner p with
    | some i => (codesIn bytes flags).foldl (fun t c => takeCode i c.2 c.1 t) s
    | none => s)

/-! ### The loss timer (R67, R68) -/

/-- R68: the record after an expiry: the standard is kept. A vertical-blank code seen before the expiry no
longer arms the next field start (DESIGN CHOICE, log 25). -/
def SourceRecord.expired (r : SourceRecord) : SourceRecord :=
  { r with state := .lost, goodRun := 0, badRun := 0, candidate := none, lastBit := none
           lossTimer := none, sawBlank := false, lineOpen := false, field := none }

/-- R68, R84. A timer that is stopped, or has time left, takes no expiry (log 3, log 6). -/
def execLossTimerExpiry (i : SourceId) (s : State) : Host.Outcome State Fault Refusal :=
  .next (
    if (s.source i).state ≠ .off ∧ (s.source i).lossTimer = some 0 then
      (s.setPage i (s.page i).abandoned).changeSource i (s.source i).expired
    else s)

/-! ### The commands (R74 to R77) -/

/-- R74. -/
def lockParams (h : Header) (lockCount unstableLimit lossTimeout : Nat) (s : State) : Reply :=
  if !h.clean then refuse s .badArgument
  else if 2 ≤ lockCount ∧ lockCount ≤ 15 ∧ 2 ≤ unstableLimit ∧ unstableLimit ≤ 31
      ∧ 20 ≤ lossTimeout ∧ lossTimeout ≤ 1000 ∧ lossTimeout % 20 = 0
  then ({ s with params := { lockCount, unstableLimit, lossTimeout } }, .done .ok 0)
  else refuse s .badArgument

/-- R75 step 2: another source, not OFF, that has the port. -/
def State.portHolder (s : State) (i : SourceId) (p : PortId) : Option SourceId :=
  (List.finRange 16).find? (fun k =>
    k ≠ i && (s.source k).state ≠ .off && (s.source k).port = p)

/-- R76 steps 1 to 4. -/
def SourceRecord.configured (r : SourceRecord) (p : PortId) (e : Expect) (hStart vStart : Nat)
    (swap : Bool) (timeout : Nat) : SourceRecord :=
  { r with
    enabled := true, port := p, expect := e, hStart, vStart, fieldSwap := swap
    state := .searching, goodRun := 0, badRun := 0, standard := none, candidate := none
    lastBit := none, lossTimer := some timeout, sawBlank := false, lineOpen := false, field := none }

/-- R75, R76. -/
def sourceSet (h : Header) (a : SourceArgs) (s : State) : Reply :=
  match parseFin 16 a.source, parseFin 16 a.port, parseExpect a.expect, parseYesNo a.fieldSwap with
  | some i, some p, some e, some swap =>
      if !h.clean || !(a.hStart ≤ 16 && a.hStart % 2 = 0 && a.vStart ≤ 15) then
        refuse s .badArgument
      else match s.portHolder i p with
        | some k => refuse s .portInUse k.val
        | none =>
            ((s.setPage i (s.page i).abandoned.cleared).changeSource i
                ((s.source i).configured p e a.hStart a.vStart swap s.params.lossTimeout),
              .done .ok 0)
  | _, _, _, _ => refuse s .badArgument

/-- R77. -/
def SourceRecord.disabled (r : SourceRecord) : SourceRecord :=
  { r with
    enabled := false, state := .off, goodRun := 0, badRun := 0, standard := none, candidate := none
    lastBit := none, lossTimer := none, sawBlank := false, lineOpen := false, field := none }

/-- R77. -/
def sourceDisable (h : Header) (source : Nat) (s : State) : Reply :=
  match parseFin 16 source with
  | some i =>
      if !h.clean then refuse s .badArgument
      else if (s.source i).state = .off then (s, .done .ok 0)
      else
        ((s.setPage i (s.page i).abandoned.cleared).changeSource i (s.source i).disabled,
          .done .ok 0)
  | none => refuse s .badArgument

def execSourceSet (h : Header) (args : SourceArgs) (s : State) : Host.Outcome State Fault Refusal :=
  .next (arrive (.sourceSet h args) (answering h 0x30 (sourceSet h args)) s)

def execSourceDisable (h : Header) (source : Nat) (s : State) : Host.Outcome State Fault Refusal :=
  .next (arrive (.sourceDisable h source) (answering h 0x31 (sourceDisable h source)) s)

def execLockParams (h : Header) (lockCount unstableLimit lossTimeout : Nat) (s : State) :
    Host.Outcome State Fault Refusal :=
  .next (arrive (.lockParams h lockCount unstableLimit lossTimeout)
    (answering h 0x32 (lockParams h lockCount unstableLimit lossTimeout)) s)

end Sys2Proof.Machine
end

