-- ==== Sys2Proof/Machine/Queries.lean ====
section
/-! DEFINITION. The eight queries: the layout of every result record (table 12-7), the snapshots and
the checks (11_notices_and_queries.md). -/

namespace Sys2Proof.Machine

/-! ### Result records (table 12-7, R163 to R165) -/

def zeroBytes (n : Nat) : List Byte := List.replicate n 0

/-- Table 12-4a. -/
def tileBlockBytes (t : Tile) : List Byte :=
  halfField t.geometry.x ++ halfField t.geometry.y ++ halfField t.geometry.w
  ++ halfField t.geometry.h ++ [byteField t.view.scale, 0]
  ++ halfField t.view.cx ++ halfField t.view.cy
  ++ [byteField (codeOrNone t.source), byteField (codeOrNone t.tour),
      byteField t.style.borderWidth, byteField t.style.borderColour.val,
      byteField (codeLossPolicy t.style.lossPolicy), byteField t.style.lossColour.val]

/-- The mask slots in use, bit k for slot k. -/
def slotSet (m : MaskSlots) : Nat :=
  ((List.finRange 4).map (fun k => if (m.get k).isSome then 2 ^ k.val else 0)).sum

/-- R163. -/
def sourceBytes (s : State) (i : SourceId) : List Byte :=
  let r := s.source i
  [byteField i.val, byteField (codeYesNo r.enabled), byteField r.port.val,
    byteField (codeExpect r.expect), byteField r.hStart, byteField r.vStart,
    byteField (codeYesNo r.fieldSwap), byteField (codeSourceState r.state),
    byteField (codeStandard r.standard), byteField r.goodRun, byteField r.badRun,
    byteField (codeOrNone (s.page i).newest), byteField (slotSet (s.masks.get i))]
  ++ zeroBytes 3 ++ wordField (s.page i).count.toNat ++ zeroBytes 4

/-- R164. -/
def layoutBytes (slot : SlotId) (rank : Nat) (t : Tile) : List Byte :=
  [byteField slot.val, byteField rank, 0, 0] ++ tileBlockBytes t

/-- R165: the tour fields of a slot, zero where it has no runtime. -/
def runtimeFields (tile : Tile) : Option Runtime → List Byte
  | some r => [1, byteField (codeOrNone tile.tour), byteField r.step,
      byteField (codeRunState r.state), byteField (wholeSeconds r.remaining)]
  | none => zeroBytes 5

/-- R165. -/
def runtimeBytes (s : State) (h : Head) (slot : SlotId) (tile : Tile) : List Byte :=
  [byteField slot.val, byteField (codeOrNone ((s.head h).view.shown.get slot))]
  ++ runtimeFields tile (s.runtime h slot)
  ++ [byteField (s.list h slot).length, byteField (codeOrNone (topRule (s.list h slot)))]
  ++ zeroBytes 7

/-- R165: the twelve step fields, zero past the step count. -/
def stepBytes (steps : List TourStep) : List Byte :=
  (List.range 12).flatMap (fun k =>
    match steps[k]? with
    | some st => [byteField st.source.val, byteField st.dwell]
    | none => [0, 0])

/-- R165. The skip_lost byte of an EMPTY tour, which the spec does not name, is 0 (DESIGN CHOICE, log 31). -/
def tourBytes (y : TourId) : Option Tour → List Byte
  | some t => [byteField y.val, 1, byteField t.steps.length, byteField (codeYesNo t.skipLost)]
      ++ zeroBytes 4 ++ stepBytes t.steps
  | none => [byteField y.val, 0, 0, 0] ++ zeroBytes 4 ++ stepBytes []

/-- R163: an EMPTY rule's other fields read as zero. -/
def ruleBytes (n : RuleId) : Option Rule → List Byte
  | some r => [byteField n.val, 1, byteField (codeOrNone r.line), byteField (codeHead r.head),
      byteField r.slot.val, byteField r.source.val, byteField r.priority, byteField r.hold,
      byteField (codeYesNo r.latch)] ++ zeroBytes 7
  | none => byteField n.val :: zeroBytes 15

/-- R163: the raw level is the pin's at the snapshot. -/
def lineBytes (l : LineId) (r : LineRecord) : List Byte :=
  [byteField l.val, byteField (codeYesNo r.enabled), byteField (codePolarity r.polarity),
    byteField r.debounce, byteField (codeLineState r.state), byteField (codeYesNo r.pinHigh), 0, 0]

/-- R165: the hold a call-up record reports, in milliseconds. -/
def EntryState.holdLeft : EntryState → Nat
  | .holding left => left
  | .asserted => 0
  | .latched => 0

/-- R165. -/
def entryBytes (e : Entry) : List Byte :=
  [byteField e.rule.val, byteField e.priority, byteField (codeEntryState e.state),
    byteField (wholeSeconds e.state.holdLeft)] ++ wordField e.arrival.toNat ++ zeroBytes 8

/-- Kind, head and object of a notice's key. -/
def keyBytes : NoticeKey → List Byte
  | .sourceState i => [0, 0, byteField i.val]
  | .callupChange h slot => [1, byteField (codeHead h), byteField slot.val]
  | .callupRefused r => [2, 0, byteField r.val]
  | .tourAllLost h slot => [3, byteField (codeHead h), byteField slot.val]

def noticeBytes (k : NoticeKey) (v : NoticeValue) : List Byte :=
  keyBytes k ++ [byteField (codeNoticeValue v)] ++ zeroBytes 4

/-! ### Snapshots: the available records of each query, in its order -/

/-- A record that reports no notice. -/
def ResultRecord.plain (bytes : List Byte) : ResultRecord := { bytes, notice := none }

def sourceRecords (s : State) : List ResultRecord :=
  (List.finRange 16).map (fun i => .plain (sourceBytes s i))

/-- R164: the DEFINED slots of a bank in rank order. -/
def layoutRecords (b : Bank) : List ResultRecord :=
  b.order.filterMap (fun slot => (b.slots.get slot).map (fun t =>
    .plain (layoutBytes slot (b.rankOf slot) t)))

/-- R165: the DEFINED slots of LIVE in slot order. -/
def runtimeRecords (s : State) (h : Head) : List ResultRecord :=
  (List.finRange 32).filterMap (fun slot => (s.liveTile h slot).map (fun t =>
    .plain (runtimeBytes s h slot t)))

def tourRecords (s : State) (y : TourId) : List ResultRecord := [.plain (tourBytes y (s.tour y))]

def ruleRecords (s : State) : List ResultRecord :=
  (List.finRange 32).map (fun n => .plain (ruleBytes n (s.rule n)))

def lineRecords (s : State) : List ResultRecord :=
  (List.finRange 16).map (fun l => .plain (lineBytes l (s.line l)))

def callupRecords (s : State) (h : Head) (slot : SlotId) : List ResultRecord :=
  (s.list h slot).map (fun e => .plain (entryBytes e))

/-- R161: the notices of the set in key order. -/
def noticeRecords (s : State) : List ResultRecord :=
  s.notices.inOrder.map (fun n => { bytes := noticeBytes n.1 n.2, notice := some n })

/-! ### The run (R151, R162) -/

/-- R162 step 1: the buffer is a multiple of 16 and every reserved field is zero. -/
def queryOk (h : Header) (q : QueryArgs) : Bool := h.clean && q.buffer % 16 = 0

/-- R151, R162: the first max count of the available records are owed to the buffer. A query that has
no record to write ends at its execution (log 15); `available` is the second count it reports. -/
def startQuery (h : Header) (code : Nat) (q : QueryArgs) (records : List ResultRecord) (s : State) :
    Reply :=
  if records.take q.maxCount = [] then (s, .counts 0 records.length)
  else (s, .running
    { header := h, code, address := BitVec.ofNat 32 q.buffer, left := records.take q.maxCount
      written := 0, available := records.length })

/-- The code of QUERY_NOTICES, whose second count is that of the notices left (R161). -/
def noticesCode : Nat := 0x67

/-- R161, R162: the second count of a query that ends in state `s`. -/
def secondCount (s : State) (q : QueryRun) : Nat :=
  if q.code = noticesCode then s.notices.size else q.available

/-! ### The eight queries -/

def querySources (h : Header) (q : QueryArgs) (s : State) : Reply :=
  if !queryOk h q then refuse s .badArgument else startQuery h 0x60 q (sourceRecords s) s

/-- R164: a bank of a head's directory; PENDING exists while a commit is pending. -/
def State.bank (s : State) (h : Head) : BankName → Option Bank
  | .working => some (s.dir h).working
  | .pending => (s.dir h).commit.map (fun c => c.bank)
  | .live => some (s.dir h).live

def queryLayout (h : Header) (q : QueryArgs) (head bank : Nat) (s : State) : Reply :=
  match parseHead head, parseBank bank with
  | some hd, some name =>
      if !queryOk h q then refuse s .badArgument
      else match s.bank hd name with
        | some b => startQuery h 0x61 q (layoutRecords b) s
        | none => refuse s .nothingPending
  | _, _ => refuse s .badArgument

def queryRuntime (h : Header) (q : QueryArgs) (head : Nat) (s : State) : Reply :=
  match parseHead head with
  | some hd =>
      if !queryOk h q then refuse s .badArgument else startQuery h 0x62 q (runtimeRecords s hd) s
  | none => refuse s .badArgument

def queryTour (h : Header) (q : QueryArgs) (tour : Nat) (s : State) : Reply :=
  match parseFin 8 tour with
  | some y =>
      if !queryOk h q then refuse s .badArgument else startQuery h 0x63 q (tourRecords s y) s
  | none => refuse s .badArgument

def queryRules (h : Header) (q : QueryArgs) (s : State) : Reply :=
  if !queryOk h q then refuse s .badArgument else startQuery h 0x64 q (ruleRecords s) s

def queryLines (h : Header) (q : QueryArgs) (s : State) : Reply :=
  if !queryOk h q then refuse s .badArgument else startQuery h 0x65 q (lineRecords s) s

def queryCallups (h : Header) (q : QueryArgs) (head slot : Nat) (s : State) : Reply :=
  match parseHead head, parseFin 32 slot with
  | some hd, some k =>
      if !queryOk h q then refuse s .badArgument
      else startQuery h 0x66 q (callupRecords s hd k) s
  | _, _ => refuse s .badArgument

/-- R161: with no record written, the notices left are those of the snapshot. -/
def queryNotices (h : Header) (q : QueryArgs) (s : State) : Reply :=
  if !queryOk h q then refuse s .badArgument else startQuery h noticesCode q (noticeRecords s) s

/-! ### Their rows -/

def execQuerySources (h : Header) (q : QueryArgs) (s : State) : Host.Outcome State Fault Refusal :=
  .next (arrive (.querySources h q) (answering h 0x60 (querySources h q)) s)

def execQueryLayout (h : Header) (q : QueryArgs) (head bank : Nat) (s : State) :
    Host.Outcome State Fault Refusal :=
  .next (arrive (.queryLayout h q head bank) (answering h 0x61 (queryLayout h q head bank)) s)

def execQueryRuntime (h : Header) (q : QueryArgs) (head : Nat) (s : State) :
    Host.Outcome State Fault Refusal :=
  .next (arrive (.queryRuntime h q head) (answering h 0x62 (queryRuntime h q head)) s)

def execQueryTour (h : Header) (q : QueryArgs) (tour : Nat) (s : State) :
    Host.Outcome State Fault Refusal :=
  .next (arrive (.queryTour h q tour) (answering h 0x63 (queryTour h q tour)) s)

def execQueryRules (h : Header) (q : QueryArgs) (s : State) : Host.Outcome State Fault Refusal :=
  .next (arrive (.queryRules h q) (answering h 0x64 (queryRules h q)) s)

def execQueryLines (h : Header) (q : QueryArgs) (s : State) : Host.Outcome State Fault Refusal :=
  .next (arrive (.queryLines h q) (answering h 0x65 (queryLines h q)) s)

def execQueryCallups (h : Header) (q : QueryArgs) (head slot : Nat) (s : State) :
    Host.Outcome State Fault Refusal :=
  .next (arrive (.queryCallups h q head slot)
    (answering h 0x66 (queryCallups h q head slot)) s)

def execQueryNotices (h : Header) (q : QueryArgs) (s : State) : Host.Outcome State Fault Refusal :=
  .next (arrive (.queryNotices h q) (answering h noticesCode (queryNotices h q)) s)

end Sys2Proof.Machine
end

