-- ==== Sys2Proof/Machine/Window.lean ====
section
/-! DEFINITION. The register window: what a read answers and what a write does (10_the_command_port.md,
section 10.1, R147, R152, R156, R157; R169 and table 12-8). -/

namespace Sys2Proof.Machine

/-! ### RUN, RESTART and the two resets -/

namespace Port

/-- R147: both sizes are set and each base is a multiple of its ring's byte size. -/
def configured (p : Port) : Bool :=
  p.cmdSize ≠ 0 && p.cplSize ≠ 0
  && p.cmdBase.toNat % (Config.commandBytes * p.cmdSize) = 0
  && p.cplBase.toNat % (Config.completionBytes * p.cplSize) = 0

/-- R147: a write that sets RUN. -/
def setRun (p : Port) : Port :=
  if p.proc = .stopped then
    if p.configured then { p with run := true, proc := .idle } else p.raiseIndexError
  else { p with run := true }

/-- R147: a write that clears RUN. -/
def clearRun (p : Port) : Port :=
  { p with run := false, proc := if p.proc = .idle then .stopped else p.proc }

/-- R156: RESTART, without effect in any state but FAULTED. -/
def restarted (p : Port) : Port :=
  if p.proc = .faulted then
    { p with fault := none, proc := if p.held.isSome then .waiting else p.atRest }
  else p

/-- R157: the port's own part of a port reset. -/
def afterReset (p : Port) : Port :=
  { p with
    run := false, cmdProducer := 0, cmdConsumer := 0, cplWrite := 0, cplRead := 0
    cause := .clear, enable := .clear, fault := none, proc := .stopped, held := none, query := none
    path := none, queue := [], mark := false }

end Port

/-- R34, R157: a present commit record becomes UNANSWERED and stays pending. -/
def Directory.unanswered (d : Directory) : Directory :=
  { d with commit := d.commit.map (fun c => { c with answered := false }) }

/-- R157. -/
def State.portReset (s : State) : State :=
  { s with
    port := s.port.afterReset
    dirs := { ofA := s.dirs.ofA.unanswered, ofB := s.dirs.ofB.unanswered } }

/-! ### Sizes, indices, causes -/

namespace Port

/-- R141: a CMD_SIZE write. -/
def writeCmdSize (p : Port) (v : Nat) : Port :=
  if p.proc ≠ .stopped then p
  else if Config.ringSizes.contains v then { p with cmdSize := v, cmdProducer := 0, cmdConsumer := 0 }
  else p.raiseIndexError

/-- R142: a CMD_PRODUCER write. -/
def writeProducer (p : Port) (v : Nat) : Port :=
  if v < 2 * p.cmdSize ∧ p.outstanding + ringDistance p.cmdSize v p.cmdProducer ≤ p.cmdSize
  then { p with cmdProducer := v }
  else p.raiseIndexError

/-- R143: a CPL_READ write. -/
def writeCplRead (p : Port) (v : Nat) : Port :=
  if v < 2 * p.cplSize ∧ ringDistance p.cplSize p.cplWrite v ≤ p.occupancy
  then { p with cplRead := v }
  else p.raiseIndexError

/-- R141: a base write, taken as written while STOPPED. -/
def writeCmdBase (p : Port) (v : Word) : Port :=
  if p.proc = .stopped then { p with cmdBase := v } else p

def writeCplBase (p : Port) (v : Word) : Port :=
  if p.proc = .stopped then { p with cplBase := v } else p

/-- R152: a write to CAUSE acknowledges. -/
def writeCause (p : Port) (v : Word) : Port := { p with cause := p.cause.acknowledge v }

/-- R152: ENABLE takes the bits written. -/
def writeEnable (p : Port) (v : Word) : Port := { p with enable := .ofWord v }

def setMode (p : Port) (m : CplMode) : Port := { p with mode := m }

end Port

/-- R141: a CPL_SIZE write, refused also while a completion is queued or a reservation is held. -/
def State.writeCplSize (s : State) (v : Nat) : Port :=
  if s.port.proc ≠ .stopped then s.port
  else if Config.ringSizes.contains v && s.port.queue.isEmpty && s.reservations = 0 then
    { s.port with cplSize := v, cplWrite := 0, cplRead := 0 }
  else s.port.raiseIndexError

/-! ### The window map (table 12-8) -/

def offsetControl : Nat := 0x004
def offsetCmdBase : Nat := 0x010
def offsetCmdSize : Nat := 0x014
def offsetCmdProducer : Nat := 0x018
def offsetCplBase : Nat := 0x020
def offsetCplSize : Nat := 0x024
def offsetCplRead : Nat := 0x02C
def offsetCause : Nat := 0x030
def offsetEnable : Nat := 0x034

def modeOf (drained : Bool) : CplMode := if drained then .drained else .each

/-- R147, R169: a CONTROL write without PORT_RESET: RUN, then the mode, then RESTART (log 18). -/
def Port.writeControl (p : Port) (v : Word) : Port :=
  let q := (if v.getLsbD 0 then p.setRun else p.clearRun).setMode (modeOf (v.getLsbD 1))
  if v.getLsbD 9 then q.restarted else q

/-- R169: what a whole-word write does to the state; an offset not listed, or one of a register that
is read only, discards the write. -/
def State.writeRegister (s : State) (offset : Nat) (v : Word) : State :=
  if offset = offsetControl then
    if v.getLsbD 8 then s.portReset.settled else (s.setPort (s.port.writeControl v)).settled
  else if offset = offsetCmdBase then s.setPort (s.port.writeCmdBase v)
  else if offset = offsetCmdSize then (s.setPort (s.port.writeCmdSize v.toNat)).settled
  else if offset = offsetCmdProducer then (s.setPort (s.port.writeProducer v.toNat)).settled
  else if offset = offsetCplBase then s.setPort (s.port.writeCplBase v)
  else if offset = offsetCplSize then (s.setPort (s.writeCplSize v.toNat)).settled
  else if offset = offsetCplRead then (s.setPort (s.port.writeCplRead v.toNat)).settled
  else if offset = offsetCause then (s.setPort (s.port.writeCause v)).settled
  else if offset = offsetEnable then s.setPort (s.port.writeEnable v)
  else s

/-- Table 12-8: IDENT, part code 0x1620 and the revision. -/
def identWord : Word := BitVec.ofNat 32 (0x1620 * 65536 + Config.revision.toNat)

def controlWord (p : Port) : Word :=
  BitVec.ofNat 32 (codeYesNo p.run + 2 * codeYesNo (p.mode = .drained))

/-- R154, table 12-8: the fault record's three words, zero where there is no fault. -/
def faultKindWord (p : Port) : Word :=
  match p.fault with
  | some f => BitVec.ofNat 32 (codeFaultKind f.kind)
  | none => 0

def faultPhaseWord (p : Port) : Word :=
  match p.fault with
  | some f => BitVec.ofNat 32 (codePhase f.phase)
  | none => 0

def faultAddressWord (p : Port) : Word :=
  match p.fault with
  | some f => f.address
  | none => 0

/-- R169, table 12-8: the word a read of the window answers. A read changes nothing. -/
def State.readWindow (s : State) (offset : Nat) : Word :=
  match offset with
  | 0x000 => identWord
  | 0x004 => controlWord s.port
  | 0x010 => s.port.cmdBase
  | 0x014 => BitVec.ofNat 32 s.port.cmdSize
  | 0x018 => BitVec.ofNat 32 s.port.cmdProducer
  | 0x01C => BitVec.ofNat 32 s.port.cmdConsumer
  | 0x020 => s.port.cplBase
  | 0x024 => BitVec.ofNat 32 s.port.cplSize
  | 0x028 => BitVec.ofNat 32 s.port.cplWrite
  | 0x02C => BitVec.ofNat 32 s.port.cplRead
  | 0x030 => s.port.cause.toWord
  | 0x034 => s.port.enable.toWord
  | 0x040 => faultKindWord s.port
  | 0x044 => faultPhaseWord s.port
  | 0x048 => faultAddressWord s.port
  | 0x050 => BitVec.ofNat 32 (codeProc s.port.proc)
  | 0x060 => s.headStatus .a
  | 0x064 => (s.head .a).frameNumber
  | 0x068 => s.headStatus .b
  | 0x06C => (s.head .b).frameNumber
  | _ => 0

/-! ### The rows -/

def execRunSet (s : State) : Host.Outcome State Fault Refusal :=
  .next (s.setPort s.port.setRun).settled

def execRunClear (s : State) : Host.Outcome State Fault Refusal :=
  .next (s.setPort s.port.clearRun).settled

def execCompletionInterruptMode (mode : CplMode) (s : State) : Host.Outcome State Fault Refusal :=
  .next (s.setPort (s.port.setMode mode)).settled

def execPortReset (s : State) : Host.Outcome State Fault Refusal := .next s.portReset.settled

def execRestart (s : State) : Host.Outcome State Fault Refusal :=
  .next (s.setPort s.port.restarted).settled

def execCmdSize (value : Word) (s : State) : Host.Outcome State Fault Refusal :=
  .next (s.setPort (s.port.writeCmdSize value.toNat)).settled

def execCplSize (value : Word) (s : State) : Host.Outcome State Fault Refusal :=
  .next (s.setPort (s.writeCplSize value.toNat)).settled

def execCmdProducer (value : Word) (s : State) : Host.Outcome State Fault Refusal :=
  .next (s.setPort (s.port.writeProducer value.toNat)).settled

def execCplRead (value : Word) (s : State) : Host.Outcome State Fault Refusal :=
  .next (s.setPort (s.port.writeCplRead value.toNat)).settled

def execCause (value : Word) (s : State) : Host.Outcome State Fault Refusal :=
  .next (s.setPort (s.port.writeCause value)).settled

/-- R169: byte enables that do not select the whole word discard the write. -/
def execRegisterWrite (offset : Nat) (enables : BitVec 4) (value : Word) (s : State) :
    Host.Outcome State Fault Refusal :=
  .next (if enables = 15 then s.writeRegister offset value else s)

/-- R115 with R116: the line's registers reset, its pin and the sampling of it stand (log 8). -/
def LineRecord.deviceReset (r : LineRecord) : LineRecord :=
  { LineRecord.reset with pinHigh := r.pinHigh, rawHigh := r.rawHigh, sampled := r.sampled }

/-- R3, R35, R37, R42, R56 to R60, R67, R79, R91, R100, R104, R115, R123, R128, R129, R158, R159: every
block at its device-reset values. The command queue, the pins' levels and the SDRAM's bytes stand
(log 7, log 8, log 21). -/
def execDeviceReset (s : State) : Host.Outcome State Fault Refusal :=
  .next { State.reset with
    pending := s.pending, store := s.store
    lines := s.lines.map LineRecord.deviceReset }

end Sys2Proof.Machine
end

