-- ==== Sys2Proof/Machine/Transfers.lean ====
section
/-! DEFINITION. The part's writes on the host bus and the faults of its transfers
(10_the_command_port.md, R146, R151, R154, R155; R161 and R168). -/

namespace Sys2Proof.Machine

/-! ### Result writes (R151, R161) -/

/-- R161: a wholly written record removes its notice, unless the notice now holds another value. One that
was raised again with the value reported is removed (DESIGN CHOICE, log 29). -/
def NoticeSet.reported (n : NoticeSet) : Option (NoticeKey × NoticeValue) → NoticeSet
  | some (k, v) => if n.get k = some v then n.put k none else n
  | none => n

/-- R151: the query ends: its completion joins the queue, unless the query was quiet. -/
def endQuery (q : QueryRun) (s : State) : State :=
  s.setPort { s.port.answered q.header q.code .ok q.written (secondCount s q) with
    proc := s.port.atRest, query := none, path := none }

/-- R151: the query after one more record. -/
def QueryRun.advanced (q : QueryRun) (r : ResultRecord) (rest : List ResultRecord) : QueryRun :=
  { q with address := q.address + BitVec.ofNat 32 r.bytes.length, left := rest
           written := q.written + 1 }

/-- R151: the record at the front of the run has been written whole. -/
def writeResult (q : QueryRun) (r : ResultRecord) (rest : List ResultRecord) (s : State) : State :=
  let t : State := { s with notices := s.notices.reported r.notice
                            port := { s.port with lastWrite := some ⟨q.address, r.bytes⟩ } }
  let q' := q.advanced r rest
  if rest = [] then endQuery q' t else t.setPort { t.port with query := some q' }

/-- A result write completes only where one is on the path (log 3). -/
def execResultWrite (s : State) : Host.Outcome State Fault Refusal :=
  .next (match s.port.path, s.port.query with
    | some .resultWrite, some q =>
        match q.left with
        | r :: rest => (writeResult q r rest s).settled
        | [] => s
    | _, _ => s)

/-! ### Completion writes (R143, R146, R168) -/

namespace Port

/-- R143: the phase bit of the record at the write index. -/
def phase (p : Port) : Bool := p.cplWrite < p.cplSize

/-- R146: the bus address of the completion entry at the write index, from CPL_BASE as it stands when the
write ends or faults (DESIGN CHOICE, log 28). -/
def entryAddress (p : Port) : Word :=
  p.cplBase + BitVec.ofNat 32 (p.cplWrite % p.cplSize * Config.completionBytes)

/-- R148: the bus address of the command entry at the consumer. -/
def commandAddress (p : Port) : Word :=
  p.cmdBase + BitVec.ofNat 32 (p.cmdConsumer % p.cmdSize * Config.commandBytes)

end Port

/-- Table 12-5, R168. -/
def completionBytes (c : Completion) (phase : Bool) : List Byte :=
  halfField c.tag ++ [byteField c.code, byteField (codeResult c.result)] ++ wordField c.detail
  ++ wordField c.detail2 ++ zeroBytes 3 ++ [byteField (codeYesNo phase)]

/-- R146, R153: the completion at the head of the queue has been written whole; EACH raises CPL. -/
def Port.wroteCompletion (p : Port) (c : Completion) (rest : List Completion) : Port :=
  { p with
    queue := rest
    cplWrite := ringNext p.cplSize p.cplWrite
    path := none
    lastWrite := some ⟨p.entryAddress, completionBytes c p.phase⟩
    cause := { p.cause with cpl := p.cause.cpl || p.mode = .each } }

/-- A completion write completes only where one is on the path (log 3). -/
def execCompletionWrite (s : State) : Host.Outcome State Fault Refusal :=
  .next (match s.port.path, s.port.queue with
    | some .completionWrite, c :: rest => (s.setPort (s.port.wroteCompletion c rest)).settled
    | _, _ => s)

/-! ### Bus faults (R154, R155) -/

/-- R154: the fault record, cause FAULT and FAULTED; the transfer is off the path. -/
def Port.faulted (p : Port) (kind : BusFaultKind) (phase : Transfer) (address : Word) : Port :=
  { p with
    fault := some { kind, phase, address }
    cause := { p.cause with fault := true }
    proc := .faulted
    path := none }

/-- R155, R151: the query under way, if any, ends with its DATA_FAULT completion, quiet or not. -/
def cutQuery (s : State) : Port :=
  match s.port.query with
  | some q =>
      { s.port.enqueue { tag := q.header.tag, code := q.code, result := .dataFault
                         detail := q.written, detail2 := secondCount s q } with query := none }
  | none => s.port

/-- R154: the bus address of the entry or record whose transfer is on the path. -/
def Port.transferAddress (p : Port) : Transfer → Word
  | .fetch => p.commandAddress
  | .resultWrite =>
      match p.query with
      | some q => q.address
      | none => 0
  | .completionWrite => p.entryAddress

/-- R154: DATA_PARITY arises on the part's reads alone. -/
def kindFits : BusFaultKind → Transfer → Bool
  | .dataParity, .fetch => true
  | .dataParity, .resultWrite => false
  | .dataParity, .completionWrite => false
  | .noResponse, _ => true
  | .targetAbort, _ => true
  | .retryLimit, _ => true

/-- R154, R155. Where no transfer is on the path, or the kind cannot arise on it, no fault is taken
(log 3, log 13). -/
def execBusFault (kind : BusFaultKind) (s : State) : Host.Outcome State Fault Refusal :=
  .next (match s.port.path with
    | some phase =>
        if kindFits kind phase then
          (s.setPort ((cutQuery s).faulted kind phase (s.port.transferAddress phase))).settled
        else s
    | none => s)

end Sys2Proof.Machine
end

