-- ==== Sys2Proof/Machine/Execute.lean ====
section
/-! DEFINITION. The command processor's execution of a fetched record, whichever command it spells
(R148 to R150, R167), and BAD_COMMAND. -/

namespace Sys2Proof.Machine

/-- R150, R167: an unknown code is answered before any operand is looked at. -/
def badCommand (s : State) : Reply := refuse s .badCommand

/-- R150: the execution of a ring command, which its owning block answers. What is no command of the
ring is never held by the processor. -/
def execute (i : Instr) : State → State :=
  match i with
  | .tilePlace h head slot rank tile => answering h 0x10 (tilePlace h head slot rank tile)
  | .tileModify h head slot groups tile => answering h 0x11 (tileModify h head slot groups tile)
  | .tileRestack h head slot rank => answering h 0x12 (tileRestack h head slot rank)
  | .tileRetire h head slot => answering h 0x13 (tileRetire h head slot)
  | .layoutClear h head => answering h 0x14 (layoutClear h head)
  | .layoutRevert h head => answering h 0x15 (layoutRevert h head)
  | .layoutCommit h head => answering h commitCode (layoutCommit h head)
  | .layoutCancel h head => answering h 0x17 (layoutCancel h head)
  | .headStart h head standard => answering h 0x20 (headStart h head standard)
  | .headStop h head => answering h 0x21 (headStop h head)
  | .paletteSet h index y cb cr => answering h 0x22 (paletteSet h index y cb cr)
  | .headBackground h head colour => answering h 0x23 (headBackground h head colour)
  | .sourceSet h args => answering h 0x30 (sourceSet h args)
  | .sourceDisable h source => answering h 0x31 (sourceDisable h source)
  | .lockParams h lockCount unstableLimit lossTimeout =>
      answering h 0x32 (lockParams h lockCount unstableLimit lossTimeout)
  | .maskSet h args => answering h 0x38 (maskSet h args)
  | .maskClear h source slot => answering h 0x39 (maskClear h source slot)
  | .tourSet h args => answering h 0x40 (tourSet h args)
  | .tourRetire h tour => answering h 0x41 (tourRetire h tour)
  | .tourControl h head slot action => answering h 0x42 (tourControl h head slot action)
  | .lineSet h line enabled polarity debounce =>
      answering h 0x50 (lineSet h line enabled polarity debounce)
  | .ruleSet h args => answering h 0x51 (ruleSet h args)
  | .ruleRetire h rule => answering h 0x52 (ruleRetire h rule)
  | .callupTrigger h rule => answering h 0x53 (callupTrigger h rule)
  | .callupClear h head slot rule => answering h 0x54 (callupClear h head slot rule)
  | .querySources h q => answering h 0x60 (querySources h q)
  | .queryLayout h q head bank => answering h 0x61 (queryLayout h q head bank)
  | .queryRuntime h q head => answering h 0x62 (queryRuntime h q head)
  | .queryTour h q tour => answering h 0x63 (queryTour h q tour)
  | .queryRules h q => answering h 0x64 (queryRules h q)
  | .queryLines h q => answering h 0x65 (queryLines h q)
  | .queryCallups h q head slot => answering h 0x66 (queryCallups h q head slot)
  | .queryNotices h q => answering h noticesCode (queryNotices h q)
  | .badCommand h code => answering h code badCommand
  | .runSet => id
  | .runClear => id
  | .completionInterruptMode _ => id
  | .portReset => id
  | .restart => id
  | .cmdSize _ => id
  | .cplSize _ => id
  | .cmdProducer _ => id
  | .cplRead _ => id
  | .cause _ => id
  | .registerWrite _ _ _ => id
  | .fetch _ => id
  | .leaveWaiting => id
  | .resultWrite => id
  | .completionWrite => id
  | .busFault _ => id
  | .frameStart _ => id
  | .frameEnd _ => id
  | .timingCode _ _ _ => id
  | .lossTimerExpiry _ => id
  | .dwellExpiry _ _ => id
  | .levelChange _ _ => id
  | .debounceExpiry _ => id
  | .holdExpiry _ => id
  | .deviceReset => id

def execBadCommand (h : Header) (code : Nat) (s : State) : Host.Outcome State Fault Refusal :=
  .next (arrive (.badCommand h code) (answering h code badCommand) s)

/-- R148: the read of a command entry completes with the 32 bytes read (log 2). -/
def execFetch (record : List Byte) (s : State) : Host.Outcome State Fault Refusal :=
  .next (arrive (decodeRecord record) (execute (decodeRecord record)) s)

/-- R149: in WAITING, with room, the held command is executed. Otherwise the wait goes on (log 3). -/
def execLeaveWaiting (s : State) : Host.Outcome State Fault Refusal :=
  .next (match s.port.held with
    | some i =>
        if s.port.proc = .waiting ∧ s.hasRoom = true then
          (execute i (s.setPort s.port.took)).settled
        else s
    | none => s)

end Sys2Proof.Machine
end

