-- ==== Sys2Proof/Machine/Dispatch.lean ====
section
/-! DEFINITION. One arm per command of spec/opcode_table.json, each one call of its meaning. -/

namespace Sys2Proof.Machine

def exec (i : Instr) (s : State) : Host.Outcome State Fault Refusal :=
  match i with
  | .tilePlace h head slot rank tile => Sys2Proof.Machine.execTilePlace h head slot rank tile s
  | .tileModify h head slot groups tile => Sys2Proof.Machine.execTileModify h head slot groups tile s
  | .tileRestack h head slot rank => Sys2Proof.Machine.execTileRestack h head slot rank s
  | .tileRetire h head slot => Sys2Proof.Machine.execTileRetire h head slot s
  | .layoutClear h head => Sys2Proof.Machine.execLayoutClear h head s
  | .layoutRevert h head => Sys2Proof.Machine.execLayoutRevert h head s
  | .layoutCommit h head => Sys2Proof.Machine.execLayoutCommit h head s
  | .layoutCancel h head => Sys2Proof.Machine.execLayoutCancel h head s
  | .headStart h head standard => Sys2Proof.Machine.execHeadStart h head standard s
  | .headStop h head => Sys2Proof.Machine.execHeadStop h head s
  | .paletteSet h index y cb cr => Sys2Proof.Machine.execPaletteSet h index y cb cr s
  | .headBackground h head colour => Sys2Proof.Machine.execHeadBackground h head colour s
  | .sourceSet h args => Sys2Proof.Machine.execSourceSet h args s
  | .sourceDisable h source => Sys2Proof.Machine.execSourceDisable h source s
  | .lockParams h lockCount unstableLimit lossTimeout => Sys2Proof.Machine.execLockParams h lockCount unstableLimit lossTimeout s
  | .maskSet h args => Sys2Proof.Machine.execMaskSet h args s
  | .maskClear h source slot => Sys2Proof.Machine.execMaskClear h source slot s
  | .tourSet h args => Sys2Proof.Machine.execTourSet h args s
  | .tourRetire h tour => Sys2Proof.Machine.execTourRetire h tour s
  | .tourControl h head slot action => Sys2Proof.Machine.execTourControl h head slot action s
  | .lineSet h line enabled polarity debounce => Sys2Proof.Machine.execLineSet h line enabled polarity debounce s
  | .ruleSet h args => Sys2Proof.Machine.execRuleSet h args s
  | .ruleRetire h rule => Sys2Proof.Machine.execRuleRetire h rule s
  | .callupTrigger h rule => Sys2Proof.Machine.execCallupTrigger h rule s
  | .callupClear h head slot rule => Sys2Proof.Machine.execCallupClear h head slot rule s
  | .querySources h q => Sys2Proof.Machine.execQuerySources h q s
  | .queryLayout h q head bank => Sys2Proof.Machine.execQueryLayout h q head bank s
  | .queryRuntime h q head => Sys2Proof.Machine.execQueryRuntime h q head s
  | .queryTour h q tour => Sys2Proof.Machine.execQueryTour h q tour s
  | .queryRules h q => Sys2Proof.Machine.execQueryRules h q s
  | .queryLines h q => Sys2Proof.Machine.execQueryLines h q s
  | .queryCallups h q head slot => Sys2Proof.Machine.execQueryCallups h q head slot s
  | .queryNotices h q => Sys2Proof.Machine.execQueryNotices h q s
  | .badCommand h code => Sys2Proof.Machine.execBadCommand h code s
  | .runSet => Sys2Proof.Machine.execRunSet s
  | .runClear => Sys2Proof.Machine.execRunClear s
  | .completionInterruptMode mode => Sys2Proof.Machine.execCompletionInterruptMode mode s
  | .portReset => Sys2Proof.Machine.execPortReset s
  | .restart => Sys2Proof.Machine.execRestart s
  | .cmdSize value => Sys2Proof.Machine.execCmdSize value s
  | .cplSize value => Sys2Proof.Machine.execCplSize value s
  | .cmdProducer value => Sys2Proof.Machine.execCmdProducer value s
  | .cplRead value => Sys2Proof.Machine.execCplRead value s
  | .cause value => Sys2Proof.Machine.execCause value s
  | .registerWrite offset enables value => Sys2Proof.Machine.execRegisterWrite offset enables value s
  | .fetch record => Sys2Proof.Machine.execFetch record s
  | .leaveWaiting => Sys2Proof.Machine.execLeaveWaiting s
  | .resultWrite => Sys2Proof.Machine.execResultWrite s
  | .completionWrite => Sys2Proof.Machine.execCompletionWrite s
  | .busFault kind => Sys2Proof.Machine.execBusFault kind s
  | .frameStart head => Sys2Proof.Machine.execFrameStart head s
  | .frameEnd head => Sys2Proof.Machine.execFrameEnd head s
  | .timingCode port flags bytes => Sys2Proof.Machine.execTimingCode port flags bytes s
  | .lossTimerExpiry source => Sys2Proof.Machine.execLossTimerExpiry source s
  | .dwellExpiry head slot => Sys2Proof.Machine.execDwellExpiry head slot s
  | .levelChange line change => Sys2Proof.Machine.execLevelChange line change s
  | .debounceExpiry line => Sys2Proof.Machine.execDebounceExpiry line s
  | .holdExpiry rule => Sys2Proof.Machine.execHoldExpiry rule s
  | .deviceReset => Sys2Proof.Machine.execDeviceReset s

end Sys2Proof.Machine
end

