-- ==== Sys2Proof/Machine/Time.lean ====
section
/-! DEFINITION. One millisecond of real time (log 1): loss timers (R67), debounce timers (R117), holds
(R136) and counting dwells (R106) lose a millisecond and stop at 0, where the row of their expiry
takes over (log 6), and then every alarm line that has not yet sampled its pin in the millisecond does
so (R116, log 23). -/

namespace Sys2Proof.Machine

/-- R106: the dwell of a runtime counts while the runtime is RUNNING, its head is RUNNING or STOPPING
and the call-up list of its slot is empty. -/
def State.counting (s : State) (h : Head) (slot : SlotId) (r : Runtime) : Bool :=
  r.state = .running && (s.head h).state ≠ .stopped && (s.list h slot).isEmpty

def SourceRecord.tick (r : SourceRecord) : SourceRecord :=
  { r with lossTimer := r.lossTimer.map (· - 1) }

def LineRecord.tick (r : LineRecord) : LineRecord :=
  { r with timer := r.timer.map (· - 1) }

def Entry.tick (e : Entry) : Entry :=
  match e.state with
  | .holding left => { e with state := .holding (left - 1) }
  | .asserted => e
  | .latched => e

def State.tickRuntime (s : State) (h : Head) (slot : SlotId) : Option Runtime :=
  (s.runtime h slot).map (fun r =>
    if s.counting h slot r then { r with remaining := r.remaining - 1 } else r)

/-- Every running timer, hold and counting dwell loses a millisecond. -/
def countDown (s : State) : State :=
  { s with
    sources := s.sources.map SourceRecord.tick
    lines := s.lines.map LineRecord.tick
    lists := { ofA := s.lists.ofA.map (List.map Entry.tick)
               ofB := s.lists.ofB.map (List.map Entry.tick) }
    runtimes := { ofA := .ofFn (s.tickRuntime .a), ofB := .ofFn (s.tickRuntime .b) } }

/-- What a millisecond with no command does: the timers count, and the lines AL0 to AL15 in that order
take the samples they have not yet taken in it (log 23). -/
def tick (s : State) : State :=
  (List.finRange 16).foldl (fun t l => endMillisecond l t) (countDown s)

end Sys2Proof.Machine
end

