-- ==== Sys2Proof/Machine/Compose.lean ====
section
/-! DEFINITION. What a head sends: composition of a sample, masks, and the bytes of the output port, as
functions of State (03_output_heads_and_composition.md, sections 3.3 and 3.5; R95 to R98; R170). -/

namespace Sys2Proof.Machine

/-! ### The visible tile (R49, R50) -/

/-- R38: the raster height of a head. -/
def State.rasterHeight (s : State) (h : Head) : Nat := Config.frameLines (s.head h).standard

/-- R49: the clipped rectangle of a tile contains the sample. -/
def Tile.covers (t : Tile) (height x y : Nat) : Bool :=
  t.geometry.x ≤ x && x < t.geometry.x + t.geometry.w
  && t.geometry.y ≤ y && y < t.geometry.y + t.geometry.h && y < height

/-- R49: the first tile of LIVE, in rank order, that contains the sample. -/
def visibleTile (s : State) (h : Head) (x y : Nat) : Option (SlotId × Tile) :=
  (s.dir h).live.order.findSome? (fun slot =>
    match s.liveTile h slot with
    | some t => if t.covers (s.rasterHeight h) x y then some (slot, t) else none
    | none => none)

/-- R50: the sample at offsets (u, v) lies in the border; the test uses the unclipped height. -/
def Tile.inBorder (t : Tile) (u v : Nat) : Bool :=
  let b := t.style.borderWidth
  b ≠ 0 && (u < b || t.geometry.w - b ≤ u || v < b || t.geometry.h - b ≤ v)

/-! ### The content of an interior sample (R51) -/

/-- The three contents of R51. -/
inductive Content where
  | lossColour
  | page (source : SourceId) (page : PageId)
  | pattern
deriving DecidableEq, Repr

/-- R51: a usable source is read from its claimed page, if the head holds one. -/
def content (shown : Option SourceId) (state : Option SourceState) (claim : Option PageId)
    (policy : LossPolicy) : Content :=
  match shown, state with
  | none, _ => .lossColour
  | some _, none => .lossColour
  | some i, some .locked | some i, some .unstable =>
      match claim with
      | some p => .page i p
      | none => .lossColour
  | some i, some .off | some i, some .searching | some i, some .lost =>
      match policy, claim with
      | .black, _ => .lossColour
      | .freeze, some p => .page i p
      | .freeze, none => .lossColour
      | .pattern, _ => .pattern

/-- R51 for one slot of a head's frame view. -/
def slotContent (s : State) (h : Head) (slot : SlotId) (t : Tile) : Content :=
  let shown := (s.head h).view.shown.get slot
  content shown (shown.bind (s.head h).view.states.get) (shown.bind (s.head h).claims.get)
    t.style.lossPolicy

/-- R54: the bar of offset `u`. -/
def barOf (t : Tile) (u : Nat) : Nat := u / (t.geometry.w / 8)

/-- R54. -/
def patternColour (t : Tile) (u : Nat) : Colour :=
  (Config.patternBars.find? (barOf t u)).getD ⟨16, 128, 128⟩

/-! ### Page samples and masks (R52, R95 to R98) -/

/-- R52: stored sample `sx` of line `sy`, its chroma that of the stored pair that holds it. -/
def pageSample (s : State) (i : SourceId) (p : PageId) (sx sy : Nat) : Colour :=
  let a := lineAddress i p sy + 4 * (sx / 2)
  { y := Memory.read s.store (a + 1 + 2 * (sx % 2))
    cb := Memory.read s.store a
    cr := Memory.read s.store (a + 2) }

/-- R91: the region of a mask contains the source position. -/
def Mask.contains (m : Mask) (sx sy : Nat) : Bool :=
  m.x ≤ sx && sx < m.x + m.w && m.y ≤ sy && sy < m.y + m.h

/-- R95: the governing mask of a source position, from the latched list of its source. -/
def governing (list : Option MaskSlots) (sx sy : Nat) : Option Mask :=
  match list with
  | some slots => (slots.cells.filterMap id).find? (fun m => m.contains sx sy)
  | none => none

/-- R96, DARKEN. -/
def darkened (c : Colour) (shift : Nat) : Colour :=
  { y := if 16 < c.y.toNat then byteField (16 + (c.y.toNat - 16) / 2 ^ shift) else 16
    cb := 128
    cr := 128 }

/-- R96, R97: a page sample under its governing mask. -/
def maskedSample (s : State) (h : Head) (i : SourceId) (p : PageId) (sx sy : Nat) : MaskKind → Colour
  | .solid colour => (s.head h).view.palette.get colour
  | .mosaic block => pageSample s i p (sx - sx % block) (sy - sy % block)
  | .darken shift => darkened (pageSample s i p sx sy) shift

/-- R98: the loss colour of a line below the stored height, under its governing mask. -/
def maskedLoss (s : State) (h : Head) (loss : Colour) : MaskKind → Colour
  | .solid colour => (s.head h).view.palette.get colour
  | .mosaic _ => loss
  | .darken shift => darkened loss shift

/-- R52, R95, R98: an interior sample that R51 reads from a page. -/
def readSample (s : State) (h : Head) (i : SourceId) (p : PageId) (loss : Colour) (sx sy : Nat) :
    Colour :=
  let mask := governing ((s.head h).view.masks.get i) sx sy
  if sy < (s.page i).heights.get p then
    match mask with
    | some m => maskedSample s h i p sx sy m.kind
    | none => pageSample s i p sx sy
  else
    match mask with
    | some m => maskedLoss s h loss m.kind
    | none => loss

/-! ### One composed sample (R55) -/

def State.latchedColour (s : State) (h : Head) (k : ColourId) : Colour :=
  (s.head h).view.palette.get k

/-- R50 to R54: the sample of a visible tile. -/
def tileSample (s : State) (h : Head) (slot : SlotId) (t : Tile) (x y : Nat) : Colour :=
  let u := x - t.geometry.x
  let v := y - t.geometry.y
  if t.inBorder u v then s.latchedColour h t.style.borderColour
  else match slotContent s h slot t with
    | .lossColour => s.latchedColour h t.style.lossColour
    | .pattern => patternColour t u
    | .page i p =>
        readSample s h i p (s.latchedColour h t.style.lossColour)
          (t.view.cx + u * t.view.scale) (t.view.cy + v * t.view.scale)

/-- R49, R55: the composed sample at a raster position of the frame in flight. -/
def sample (s : State) (h : Head) (x y : Nat) : Colour :=
  match visibleTile s h x y with
  | some (slot, t) => tileSample s h slot t x y
  | none => s.latchedColour h (s.head h).view.background

/-! ### The output port (R53, R58, R59, R170) -/

/-- R59: 0 and 255 are kept out of active data. -/
def clampByte (b : Byte) : Byte := if b = 0 then 1 else if b = 255 then 254 else b

/-- R53, R58, R59: the four bytes of the pair that begins at even `x`. -/
def pairBytes (s : State) (h : Head) (x y : Nat) : List Byte :=
  let even := sample s h x y
  [clampByte even.cb, clampByte even.y, clampByte even.cr, clampByte (sample s h (x + 1) y).y]

/-- R58: the active bytes of frame line `y`. -/
def activeBytes (s : State) (h : Head) (y : Nat) : List Byte :=
  (List.range 360).flatMap (fun k => pairBytes s h (2 * k) y)

/-- R170: the flag byte the output port sends. -/
def flagByte (field blank endOfActive : Bool) : Byte :=
  BitVec.ofNat 8 (128 + 64 * codeYesNo field + 32 * codeYesNo blank + 16 * codeYesNo endOfActive
    + 8 * codeYesNo (blank ^^ endOfActive) + 4 * codeYesNo (field ^^ endOfActive)
    + 2 * codeYesNo (field ^^ blank) + codeYesNo (field ^^ blank ^^ endOfActive))

/-- R58: a timing code. -/
def timingCodeBytes (field blank endOfActive : Bool) : List Byte :=
  [255, 0, 0, flagByte field blank endOfActive]

/-- R58: horizontal blanking bytes of a line. -/
def blankingBytes : Standard → Nat
  | .s525 => 268
  | .s625 => 280

/-- R58: blanking lines of a field. -/
def blankingLines (std : Standard) (bottom : Bool) : Nat :=
  match std with
  | .s525 => if bottom then 23 else 22
  | .s625 => if bottom then 25 else 24

/-- R58: one line of the stream. -/
def streamLine (std : Standard) (bottom blank : Bool) (active : List Byte) : List Byte :=
  timingCodeBytes bottom blank true ++ blackBytes (blankingBytes std)
  ++ timingCodeBytes bottom blank false ++ active

/-- R58: line `n` of a field of the frame in flight, blanking lines first. -/
def fieldLine (s : State) (h : Head) (bottom : Bool) (n : Nat) : List Byte :=
  let std := (s.head h).standard
  if n < blankingLines std bottom then
    streamLine std bottom true (blackBytes Config.lineBytes)
  else
    streamLine std bottom false
      (activeBytes s h (frameLine (!bottom) (n - blankingLines std bottom)))

/-- R58: lines of a field. -/
def fieldLines (std : Standard) (bottom : Bool) : Nat :=
  blankingLines std bottom + Config.frameLines std / 2

/-- R58: the whole frame, top field first. -/
def frameBytes (s : State) (h : Head) : List Byte :=
  (List.range (fieldLines (s.head h).standard false)).flatMap (fieldLine s h false)
  ++ (List.range (fieldLines (s.head h).standard true)).flatMap (fieldLine s h true)

/-- R59: the idle level of the data lines. -/
def idleLevel : Byte := 16

/-- R58, R59: what the head's port sends: the frame in flight; nothing between a frame end and the frame
start that follows it at once (R39); the idle level before frame 1 and after a stop. -/
def outputStream (s : State) (h : Head) : List Byte :=
  if (s.head h).inFlight then frameBytes s h
  else if (s.head h).sending then []
  else [idleLevel]

end Sys2Proof.Machine
end

