-- ==== Sys2Proof/Safety.lean ====
section
/-! DEFINITION. The terms in which statements about the machine are made: when a ring command is carried
out and what its answer leaves of the port, what a carry-over leaves, and the invariants. -/

namespace Sys2Proof.Machine

/-- The outcome is a next state. -/
def Answers (o : Host.Outcome State Fault Refusal) : Prop := ∃ t, o = .next t

/-! ### Ring commands -/

/-- R148: the record of a command has just been read, and there is room to carry it out. -/
def State.Ready (s : State) : Prop := s.fetchUnderWay = true ∧ s.hasRoom = true

/-- Table 12-2: the header of a ring command. -/
def ringHeader : Instr → Option Header
  | .tilePlace h _ _ _ _ | .tileModify h _ _ _ _ | .tileRestack h _ _ _ | .tileRetire h _ _
  | .layoutClear h _ | .layoutRevert h _ | .layoutCommit h _ | .layoutCancel h _
  | .headStart h _ _ | .headStop h _ | .paletteSet h _ _ _ _ | .headBackground h _ _
  | .sourceSet h _ | .sourceDisable h _ | .lockParams h _ _ _ | .maskSet h _ | .maskClear h _ _
  | .tourSet h _ | .tourRetire h _ | .tourControl h _ _ _ | .lineSet h _ _ _ _ | .ruleSet h _
  | .ruleRetire h _ | .callupTrigger h _ | .callupClear h _ _ _ | .querySources h _
  | .queryLayout h _ _ _ | .queryRuntime h _ _ | .queryTour h _ _ | .queryRules h _
  | .queryLines h _ | .queryCallups h _ _ _ | .queryNotices h _ | .badCommand h _ => some h
  | .runSet | .runClear | .completionInterruptMode _ | .portReset | .restart | .cmdSize _
  | .cplSize _ | .cmdProducer _ | .cplRead _ | .cause _ | .registerWrite _ _ _ | .fetch _
  | .leaveWaiting | .resultWrite | .completionWrite | .busFault _ | .frameStart _ | .frameEnd _
  | .timingCode _ _ _ | .lossTimerExpiry _ | .dwellExpiry _ _ | .levelChange _ _
  | .debounceExpiry _ | .holdExpiry _ | .deviceReset => none

/-- R150: the completions of one answer: none for a quiet command that succeeds, else one. -/
def answers (h : Header) (code : Nat) (r : Result) (detail : Nat) : List Completion :=
  if r = .ok ∧ h.quiet = true then []
  else [{ tag := h.tag, code, result := r, detail, detail2 := 0 }]

namespace Port

/-- R142, R148: the consumer after one more fetch. -/
def consumerAfter (p : Port) : Nat := (p.cmdConsumer + 1) % (2 * p.cmdSize)

/-- R147, R148: after the command the processor goes on to the next entry of the ring. -/
def goesOn (p : Port) : Bool := p.run && p.cmdProducer ≠ p.consumerAfter

/-- R153: with this queue and no further entry, DRAINED mode raises CPL. -/
def drains (p : Port) (queue : List Completion) : Bool :=
  p.mode = .drained && queue.isEmpty && !p.goesOn

/-- R146 to R150, R153: the port after the command whose read ends now is carried out and the
completions `done` have joined the queue. -/
def afterCommand (p : Port) (done : List Completion) : Port :=
  { p with
    cmdConsumer := p.consumerAfter
    queue := p.queue ++ done
    held := none
    query := none
    proc := if p.goesOn then .fetching else if p.run then .idle else .stopped
    path := if p.queue ++ done ≠ [] then some .completionWrite
            else if p.goesOn then some .fetch else none
    mark := !p.drains (p.queue ++ done)
    cause := { p.cause with cpl := p.cause.cpl || p.drains (p.queue ++ done) } }

end Port

/-- The state a command leaves that has changed the other blocks into `u` and was answered `done`. -/
def State.afterCommand (u : State) (done : List Completion) : State :=
  { u with port := u.port.afterCommand done }

/-- R161, R168: the completion of a query that has written `written` records. -/
def queryAnswers (h : Header) (code written second : Nat) : List Completion :=
  if h.quiet = true then [] else [{ tag := h.tag, code, result := .ok, detail := written, detail2 := second }]

/-- R160: cause NOTICE is set after `t` exactly where it was set in `s` or a key was added since. -/
def Noticed (s t : State) : Prop :=
  t.port.cause.notice = true ↔
    s.port.cause.notice = true ∨ ∃ k, s.notices.get k = none ∧ t.notices.get k ≠ none

/-- The port of `t` is that of `s` after the command answered `done`, with the notices raised. -/
def PortLeft (s t : State) (done : List Completion) : Prop :=
  t.port = Port.afterCommand
    { s.port with cause := { s.port.cause with notice := t.port.cause.notice } } done
  ∧ Noticed s t

/-! ### Operand ranges (table 1-1 and step 1 of the checks of every ring command) -/

/-- A byte that names an object below `n`, or 255 for NONE or ALL. -/
def namesOrNone (n k : Nat) : Bool := k < n || k = 255

/-- Table 1-1, group by group, in the codes of table 12-1. -/
def geometryInRange (b : TileBlock) : Bool :=
  b.x ≤ 712 && b.x % 8 = 0 && b.y ≤ 574 && b.y % 2 = 0 && 8 ≤ b.w && b.w ≤ 720 && b.w % 8 = 0
  && 2 ≤ b.h && b.h ≤ 576 && b.h % 2 = 0

def viewInRange (b : TileBlock) : Bool :=
  1 ≤ b.scale && b.scale ≤ 4 && b.cx ≤ 718 && b.cx % 2 = 0 && b.cy ≤ 575

def styleInRange (b : TileBlock) : Bool :=
  [0, 1, 2, 4].contains b.borderWidth && b.borderColour < 16 && b.lossPolicy < 3 && b.lossColour < 16

def tileInRange (b : TileBlock) : Bool :=
  geometryInRange b && viewInRange b && namesOrNone 16 b.source && namesOrNone 8 b.tour
  && styleInRange b

/-- The fields of the groups a TILE_MODIFY selects. -/
def selectedInRange (groups : Nat) (b : TileBlock) : Bool :=
  (!groups.testBit 0 || geometryInRange b) && (!groups.testBit 1 || viewInRange b)
  && (!groups.testBit 2 || namesOrNone 16 b.source) && (!groups.testBit 3 || namesOrNone 8 b.tour)
  && (!groups.testBit 4 || styleInRange b)

/-- R91, R92: a mask parameter of its kind's values. -/
def maskParameterInRange (kind parameter : Nat) : Bool :=
  kind = 0 && parameter < 16 || kind = 1 && (parameter = 8 || parameter = 16)
  || kind = 2 && 1 ≤ parameter && parameter ≤ 4

/-- R162: a buffer address is a multiple of 16. -/
def bufferAligned (q : QueryArgs) : Bool := q.buffer % 16 = 0

/-- What step 1 of a ring command's checks asks of its operands, less the reserved fields and less
what it compares with the records of the part. -/
def operandsInRange : Instr → Bool
  | .tilePlace _ head slot rank tile =>
      head < 2 && slot < 32 && (rank ≤ 32 || rank = 255) && tileInRange tile
  | .tileModify _ head slot groups tile =>
      head < 2 && slot < 32 && 1 ≤ groups && groups ≤ 31 && selectedInRange groups tile
  | .tileRestack _ head slot rank => head < 2 && slot < 32 && (rank ≤ 31 || rank = 255)
  | .tileRetire _ head slot => head < 2 && slot < 32
  | .layoutClear _ head | .layoutRevert _ head | .layoutCommit _ head | .layoutCancel _ head
  | .headStop _ head => head < 2
  | .headStart _ head standard => head < 2 && (standard = 1 || standard = 2)
  | .paletteSet _ index _ _ _ => index < 16
  | .headBackground _ head colour => head < 2 && colour < 16
  | .sourceSet _ a =>
      a.source < 16 && a.port < 16 && a.expect < 3 && a.hStart ≤ 16 && a.hStart % 2 = 0
      && a.vStart ≤ 15 && a.fieldSwap < 2
  | .sourceDisable _ source => source < 16
  | .lockParams _ lockCount unstableLimit lossTimeout =>
      2 ≤ lockCount && lockCount ≤ 15 && 2 ≤ unstableLimit && unstableLimit ≤ 31
      && 20 ≤ lossTimeout && lossTimeout ≤ 1000 && lossTimeout % 20 = 0
  | .maskSet _ a =>
      a.source < 16 && a.slot < 4 && maskParameterInRange a.kind a.parameter && a.x ≤ 718
      && a.x % 2 = 0 && a.y ≤ 575 && 2 ≤ a.w && a.w ≤ 720 && a.w % 2 = 0 && 1 ≤ a.h && a.h ≤ 576
  | .maskClear _ source slot => source < 16 && namesOrNone 4 slot
  | .tourSet _ a =>
      a.tour < 8 && 1 ≤ a.count && a.count ≤ 12 && a.skipLost < 2
      && (a.steps.take a.count).length = a.count
      && (a.steps.take a.count).all (fun p => p.1 < 16 && 1 ≤ p.2 && p.2 ≤ 255)
  | .tourRetire _ tour => tour < 8
  | .tourControl _ head slot action => head < 2 && slot < 32 && action < 4
  | .lineSet _ line enabled polarity debounce =>
      line < 16 && enabled < 2 && polarity < 2 && debounce ≤ 255
  | .ruleSet _ a =>
      a.rule < 32 && namesOrNone 16 a.line && a.head < 2 && a.slot < 32 && a.source < 16
      && a.priority ≤ 7 && a.hold ≤ 255 && a.latch < 2
  | .ruleRetire _ rule | .callupTrigger _ rule => rule < 32
  | .callupClear _ head slot rule => head < 2 && slot < 32 && namesOrNone 32 rule
  | .querySources _ q | .queryRules _ q | .queryLines _ q | .queryNotices _ q => bufferAligned q
  | .queryLayout _ q head bank => bufferAligned q && head < 2 && bank < 3
  | .queryRuntime _ q head => bufferAligned q && head < 2
  | .queryTour _ q tour => bufferAligned q && tour < 8
  | .queryCallups _ q head slot => bufferAligned q && head < 2 && slot < 32
  | .badCommand _ _ | .runSet | .runClear | .completionInterruptMode _ | .portReset | .restart
  | .cmdSize _ | .cplSize _ | .cmdProducer _ | .cplRead _ | .cause _ | .registerWrite _ _ _
  | .fetch _ | .leaveWaiting | .resultWrite | .completionWrite | .busFault _ | .frameStart _
  | .frameEnd _ | .timingCode _ _ _ | .lossTimerExpiry _ | .dwellExpiry _ _ | .levelChange _ _
  | .debounceExpiry _ | .holdExpiry _ | .deviceReset => true

/-! ### Records as a command carries them (tables 12-1, 12-4, 12-4a) -/

/-- A block that carries the five groups of a tile record, as far as the selector asks. -/
def Carries (b : TileBlock) (groups : Nat) (t : Tile) : Prop :=
  (groups.testBit 0 = true →
    b.x = t.geometry.x ∧ b.y = t.geometry.y ∧ b.w = t.geometry.w ∧ b.h = t.geometry.h)
  ∧ (groups.testBit 1 = true → b.scale = t.view.scale ∧ b.cx = t.view.cx ∧ b.cy = t.view.cy)
  ∧ (groups.testBit 2 = true → b.source = codeOrNone t.source)
  ∧ (groups.testBit 3 = true → b.tour = codeOrNone t.tour)
  ∧ (groups.testBit 4 = true →
    b.borderWidth = t.style.borderWidth ∧ b.borderColour = t.style.borderColour.val
    ∧ b.lossPolicy = codeLossPolicy t.style.lossPolicy ∧ b.lossColour = t.style.lossColour.val)

/-- The groups a selector does not name agree in two records. -/
def AgreeElsewhere (groups : Nat) (t old : Tile) : Prop :=
  (groups.testBit 0 = false → t.geometry = old.geometry)
  ∧ (groups.testBit 1 = false → t.view = old.view)
  ∧ (groups.testBit 2 = false → t.source = old.source)
  ∧ (groups.testBit 3 = false → t.tour = old.tour)
  ∧ (groups.testBit 4 = false → t.style = old.style)

/-- R10: the five conditions of the geometry check. -/
def GeometryPasses (t : Tile) : Prop :=
  t.geometry.x + t.geometry.w ≤ 720 ∧ t.geometry.y + t.geometry.h ≤ 576
  ∧ t.view.cx + t.geometry.w * t.view.scale ≤ 720 ∧ t.view.cy + t.geometry.h * t.view.scale ≤ 576
  ∧ 2 * t.style.borderWidth < t.geometry.w ∧ 2 * t.style.borderWidth < t.geometry.h

/-- R14 step 4 is passed: the tour named, if any, is DEFINED. -/
def TourIsDefined (s : State) (t : Tile) : Prop := ∀ y, t.tour = some y → (s.tour y).isSome = true

/-- The operands of a RULE_SET that carries record `r` for rule `n`. -/
def codeRule (n : RuleId) (r : Rule) : RuleArgs :=
  { rule := n.val, line := codeOrNone r.line, head := codeHead r.head, slot := r.slot.val
    source := r.source.val, priority := r.priority, hold := r.hold, latch := codeYesNo r.latch }

/-- A step as TOUR_SET carries it. -/
def codeStep (st : TourStep) : Nat × Nat := (st.source.val, st.dwell)

def codeMaskKind : MaskKind → Nat × Nat
  | .solid colour => (0, colour.val)
  | .mosaic block => (1, block)
  | .darken shift => (2, shift)

def codeMask (i : SourceId) (k : MaskId) (m : Mask) : MaskArgs :=
  { source := i.val, slot := k.val, kind := (codeMaskKind m.kind).1
    parameter := (codeMaskKind m.kind).2, x := m.x, y := m.y, w := m.w, h := m.h }

def codeAction : TourAction → Nat
  | .hold => 0
  | .resume => 1
  | .next => 2
  | .restart => 3

def codeBank : BankName → Nat
  | .working => 0
  | .pending => 1
  | .live => 2

/-- The working bank of a head replaced. -/
def State.withWorking (s : State) (h : Head) (b : Bank) : State :=
  { s with dirs := s.dirs.set h { s.dirs.get h with working := b } }

/-! ### Fields (R65) -/

/-- R65: the four conditions for a good field. -/
def FieldGood (r : SourceRecord) (f : FieldInProgress) : Prop :=
  f.wellFormed = true ∧ r.lastBit ≠ some f.bit
  ∧ ((240 ≤ f.lines ∧ f.lines ≤ 244) ∨ (286 ≤ f.lines ∧ f.lines ≤ 290))
  ∧ (if r.state = .locked ∨ r.state = .unstable then r.standard = measured f.lines
     else ∀ e, r.expect = .only e → measured f.lines = some e)

/-- R81: the state in which the frame store writes. -/
def Written (st : SourceState) : Prop := st = .locked ∨ st = .unstable

/-! ### Tours (R107 to R109) -/

/-- R108: the step's source is LOCKED or UNSTABLE. -/
def StepUsable (s : State) (t : Tour) (k : Nat) : Prop :=
  ∃ st, t.steps[k]? = some st ∧ Written (s.source st.source).state

/-- R107 to R109: `k` is the new step after `step`, and `lost` says that a search found none. -/
def NextStep (s : State) (t : Tour) (step k : Nat) (lost : Bool) : Prop :=
  if t.skipLost = false then k = (step + 1) % t.steps.length ∧ lost = false
  else
    (∃ d, d < t.steps.length ∧ k = (step + 1 + d) % t.steps.length ∧ StepUsable s t k ∧ lost = false
      ∧ ∀ c, c < d → ¬ StepUsable s t ((step + 1 + c) % t.steps.length))
    ∨ ((∀ d, d < t.steps.length → ¬ StepUsable s t ((step + 1 + d) % t.steps.length))
      ∧ k = (step + 1) % t.steps.length ∧ lost = true)

/-- The state after a runtime has moved to step `k`, with TOUR_ALL_LOST where the search found none. -/
def State.movedTo (s : State) (h : Head) (slot : SlotId) (t : Tour) (r : Runtime) (k : Nat)
    (lost : Bool) : State :=
  let u := s.setRuntime h slot (some { r with step := k, remaining := t.dwellOf k })
  if lost then u.raise (.tourAllLost h slot) (.step k) else u

/-! ### Call-up lists (R129 to R135, R138) -/

/-- R133: the list with `e` at the position its priority and arrival number give it. -/
def placed (e : Entry) (l : List Entry) : List Entry :=
  l.takeWhile (fun f => !e.before f) ++ e :: l.dropWhile (fun f => !e.before f)

/-- R138: a list replaced, with CALLUP_CHANGE where the rule at its top changes. -/
def State.relisted (s : State) (h : Head) (slot : SlotId) (l : List Entry) : State :=
  let u := { s with lists := s.lists.set h ((s.lists.get h).set slot l) }
  if topRule l = topRule (s.list h slot) then u else u.raise (.callupChange h slot) (.top (topRule l))

/-- R133: the position a new entry takes. -/
def placeOf (e : Entry) (l : List Entry) : Nat := (l.takeWhile (fun f => !e.before f)).length

/-- R132: the entry that rule `n`, with record `r`, makes in state `s`. -/
def newEntry (st : EntryState) (n : RuleId) (r : Rule) (s : State) : Entry :=
  { rule := n, priority := r.priority, arrival := s.arrival, state := st }

/-- R131 to R133: the state after rule `n`, with record `r`, fires with entry state `st` and is not
refused, and the position of its entry. -/
inductive Fires (st : EntryState) (n : RuleId) (r : Rule) (s : State) : State → Nat → Prop where
  /-- R131: an entry of the rule stands and is refreshed in its place. -/
  | refresh (front : List Entry) (e : Entry) (back : List Entry)
      (stands : s.list r.head r.slot = front ++ e :: back) (own : e.rule = n)
      (once : ∀ f ∈ front ++ back, f.rule ≠ n) :
      Fires st n r s (s.setList r.head r.slot (front ++ { e with state := st } :: back)) front.length
  /-- R133: fewer than 4 entries stand, none of the rule. -/
  | insert (absent : ∀ f ∈ s.list r.head r.slot, f.rule ≠ n)
      (room : (s.list r.head r.slot).length < 4) :
      Fires st n r s
        (({ s with arrival := s.arrival + 1 } : State).relisted r.head r.slot
          (placed (newEntry st n r s) (s.list r.head r.slot)))
        (placeOf (newEntry st n r s) (s.list r.head r.slot))
  /-- R133: 4 entries stand, none of the rule, and the last gives way. -/
  | evict (absent : ∀ f ∈ s.list r.head r.slot, f.rule ≠ n) (keep : List Entry) (last : Entry)
      (full : s.list r.head r.slot = keep ++ [last]) (four : keep.length = 3)
      (weaker : (newEntry st n r s).before last = true) :
      Fires st n r s
        ((({ s with arrival := s.arrival + 1 } : State).raise (.callupRefused last.rule)
          (.reason .displaced)).relisted r.head r.slot (placed (newEntry st n r s) keep))
        (placeOf (newEntry st n r s) keep)

/-- R133: the list is full, holds no entry of rule `n` and its last entry does not give way. -/
def FullAgainst (st : EntryState) (n : RuleId) (r : Rule) (s : State) : Prop :=
  (∀ f ∈ s.list r.head r.slot, f.rule ≠ n) ∧ 4 ≤ (s.list r.head r.slot).length
  ∧ ∀ last, (s.list r.head r.slot).getLast? = some last →
      (newEntry st n r s).before last = false

/-- R135: what the release of line `l` makes of one entry of the list of a head and slot. -/
def releasedEntry (s : State) (l : LineId) (h : Head) (slot : SlotId) (e : Entry) : Option Entry :=
  match s.rule e.rule with
  | some r =>
      if r.line = some l ∧ r.head = h ∧ r.slot = slot ∧ e.state = .asserted then
        if r.latch then some { e with state := .latched }
        else if r.hold = 0 then none
        else some { e with state := .holding (r.hold * 1000) }
      else some e
  | none => some e

/-- R119, R130 to R133: what rule `n` makes of an assertion of line `l`: nothing where it does not name
the line, a refusal with its notice, or a firing. -/
def HearsAssertion (l : LineId) (n : RuleId) (s t : State) : Prop :=
  ((∀ r, s.rule n = some r → r.line ≠ some l) → t = s)
  ∧ ∀ r, s.rule n = some r → r.line = some l →
    (s.liveTile r.head r.slot = none → t = s.raise (.callupRefused n) (.reason .noTile))
    ∧ ((s.liveTile r.head r.slot).isSome = true → FullAgainst .asserted n r s →
        t = s.raise (.callupRefused n) (.reason .listFull))
    ∧ ((s.liveTile r.head r.slot).isSome = true → ∀ v p, Fires .asserted n r s v p → t = v)

/-- R119: the rules C0 to C31 hear an assertion of line `l` one after another. -/
def Asserted (l : LineId) (s t : State) : Prop :=
  ∃ f : Fin 33 → State, f 0 = s ∧ f (Fin.last 32) = t
    ∧ ∀ n : RuleId, HearsAssertion l n (f n.castSucc) (f n.succ)

/-! ### Alarm pins (R116 to R118) -/

/-- R116: the active level of a pin at a level. -/
def activeLevel (polarity : Polarity) (high : Bool) : Bool :=
  match polarity with
  | .activeHigh => high
  | .activeLow => !high

/-- R116, R117: what a sample of line `l` does: nothing where the level is that of the sample before.
Otherwise the new level is held, and an enabled line starts its debounce time or, with debounce 0, acts
as its expiry does. -/
def Samples (l : LineId) (s t : State) : Prop :=
  let r := s.line l
  let r' := { r with rawHigh := r.pinHigh }
  (r.pinHigh = r.rawHigh → t = s)
  ∧ (r.pinHigh ≠ r.rawHigh → r.enabled = false → t = s.setLine l r')
  ∧ (r.pinHigh ≠ r.rawHigh → r.enabled = true → r.debounce ≠ 0 →
      t = s.setLine l { r' with timer := some (r.debounce * 10) })
  ∧ (r.pinHigh ≠ r.rawHigh → r.enabled = true → r.debounce = 0 →
      exec (.debounceExpiry l) (s.setLine l { r' with timer := some 0 }) = .next t)

/-- R116: the millisecond of line `l` ends: a line that has taken its sample of it takes no second one, any
other line takes it; the next millisecond's sample is still to be taken. -/
def EndsMillisecond (l : LineId) (s t : State) : Prop :=
  let u := s.setLine l { s.line l with sampled := false }
  ((s.line l).sampled = true → t = u) ∧ ((s.line l).sampled = false → Samples l u t)

/-! ### Notices and pictures -/

/-- R159: the place of a key in key order. -/
def keyPlace : NoticeKey → Nat
  | .sourceState i => i.val
  | .callupChange h slot => 16 + 32 * codeHead h + slot.val
  | .callupRefused n => 80 + n.val
  | .tourAllLost h slot => 112 + 32 * codeHead h + slot.val

/-- R49: the rectangle of a tile, clipped to a raster height, contains the sample. -/
def Covers (t : Tile) (height x y : Nat) : Prop :=
  t.geometry.x ≤ x ∧ x < t.geometry.x + t.geometry.w
  ∧ t.geometry.y ≤ y ∧ y < t.geometry.y + t.geometry.h ∧ y < height

/-! ### Page tables (R79, R80) -/

/-- R79, R80: the stored heights after the writer has ended: its page takes the height it stored. -/
def heightsEnded (t : PageTable) : Table 4 Nat :=
  match t.writer with
  | some w => t.heights.set w.page w.height
  | none => t.heights

/-! ### Carry-over (R31, R32) -/

/-- R31, R32: the runtime of a slot after an application, row by row of the table. -/
def runtimeAfter (s : State) (h : Head) (slot : SlotId) (old new : Option Tile) : Option Runtime :=
  match new with
  | none => none
  | some tile =>
      match tile.tour with
      | none => none
      | some y =>
          if old.bind (fun o => o.tour) = some y then s.runtime h slot
          else (s.tour y).map (fun t => { step := 0, remaining := t.dwellOf 0, state := .running })

/-- R31: the application frees the slot. -/
def freed (old new : Option Tile) : Bool := old.isSome && new.isNone

/-- R31, R32: what the application of `new` over the LIVE bank `old` of head `h` leaves of runtimes,
lists, notices and, by R44, of the latched shown sources. A CANCEL sent to an empty list raises none. -/
def CarriedOver (h : Head) (old new : Bank) (s t : State) : Prop :=
  (∀ slot, t.runtime h slot = runtimeAfter s h slot (old.slots.get slot) (new.slots.get slot))
  ∧ (∀ slot, t.list h slot =
      if freed (old.slots.get slot) (new.slots.get slot) then [] else s.list h slot)
  ∧ (∀ slot, freed (old.slots.get slot) (new.slots.get slot) = true → ∀ e ∈ s.list h slot,
      t.notices.get (.callupRefused e.rule) = some (.reason .cancelled)
      ∧ t.notices.get (.callupChange h slot) = some (.top none))
  ∧ (∀ k, (∀ slot, freed (old.slots.get slot) (new.slots.get slot) = true → ∀ e ∈ s.list h slot,
        k ≠ .callupRefused e.rule ∧ k ≠ .callupChange h slot) →
      t.notices.get k = s.notices.get k)
  ∧ (∀ slot, (t.head h).view.shown.get slot =
      if old.slots.get slot = none ∧ (new.slots.get slot).isSome = true then none
      else (s.head h).view.shown.get slot)
  ∧ (∀ h' slot, h' ≠ h → t.runtime h' slot = s.runtime h' slot ∧ t.list h' slot = s.list h' slot)
  ∧ t.arrival = s.arrival

/-! ### Invariants -/

/-- R11: the rank order holds each DEFINED slot exactly once and no FREE slot. -/
def Bank.RankOk (b : Bank) : Prop :=
  b.order.Nodup ∧ ∀ slot, slot ∈ b.order ↔ (b.slots.get slot).isSome = true

/-- R11 for the three banks of a head. -/
def Directory.RankOk (d : Directory) : Prop :=
  d.working.RankOk ∧ d.live.RankOk ∧ ∀ c, d.commit = some c → c.bank.RankOk

/-- R11. -/
def State.RanksOk (s : State) : Prop := ∀ h, (s.dir h).RankOk

/-- The canonical form of the SDRAM's cells. -/
def State.StoreOk (s : State) : Prop := Memory.wf s.store = true

/-- Table 4-1, R60, R61: OFF exactly when not enabled, h_start and v_start in their ranges, and no two
sources that are not OFF share a port. -/
def State.SourcesOk (s : State) : Prop :=
  (∀ i, (s.source i).state = .off ↔ (s.source i).enabled = false)
  ∧ (∀ i, (s.source i).hStart ≤ 16 ∧ (s.source i).hStart % 2 = 0 ∧ (s.source i).vStart ≤ 15)
  ∧ ∀ i k, i ≠ k → (s.source i).state ≠ .off → (s.source k).state ≠ .off →
      (s.source i).port ≠ (s.source k).port

/-- R81: a writer page is neither the newest page nor held by a head. -/
def State.WritersOk (s : State) : Prop :=
  ∀ i w, (s.page i).writer = some w →
    (s.page i).newest ≠ some w.page ∧ ∀ h, s.holds h i w.page = false

/-- R27, R39, R41, R46, R59: a STOPPED head has no frame in flight, no commit pending and its port at the
idle level, a STOPPING head has a frame in flight, and a frame in flight alone holds claims and is sent
off the idle level. -/
def State.HeadsOk (s : State) : Prop :=
  ∀ h, ((s.head h).state = .stopped → (s.head h).inFlight = false ∧ (s.dir h).commit = none
      ∧ (s.head h).sending = false)
    ∧ ((s.head h).state = .stopping → (s.head h).inFlight = true)
    ∧ ((s.head h).inFlight = true → (s.head h).sending = true)
    ∧ ((s.head h).inFlight = false → ∀ i, (s.head h).claims.get i = none)

/-- R142 to R145, R147, R151: the indices lie in their rings, the counts keep within the rings'
entries, at most 3 completions are queued or reserved for, STOPPED has RUN clear, and a query under way
belongs to EXECUTING alone. -/
def State.RingsOk (s : State) : Prop :=
  (s.port.cmdSize = 0 → s.port.cmdProducer = 0 ∧ s.port.cmdConsumer = 0)
  ∧ (s.port.cmdSize ≠ 0 → s.port.cmdProducer < 2 * s.port.cmdSize
      ∧ s.port.cmdConsumer < 2 * s.port.cmdSize ∧ s.port.outstanding ≤ s.port.cmdSize)
  ∧ (s.port.cplSize ≠ 0 → s.port.cplWrite < 2 * s.port.cplSize
      ∧ s.port.cplRead < 2 * s.port.cplSize)
  ∧ s.port.occupancy + s.port.queue.length + s.reservations ≤ s.port.cplSize
  ∧ s.port.queue.length + s.reservations ≤ 3
  ∧ (s.port.proc = .stopped → s.port.run = false)
  ∧ (s.port.query.isSome = true ↔ s.port.proc = .executing)
  ∧ (s.port.proc = .fetching → s.port.cmdProducer ≠ s.port.cmdConsumer)

/-- R128, R129: a call-up list has at most 4 entries, at most one for a rule, each of a DEFINED rule
that targets the list and with the rule's priority, in order, and only over a DEFINED LIVE slot. -/
def State.ListsOk (s : State) : Prop :=
  ∀ h slot,
    (s.list h slot).length ≤ 4
    ∧ ((s.list h slot).map Entry.rule).Nodup
    ∧ (∀ e ∈ s.list h slot, ∃ r, s.rule e.rule = some r ∧ r.head = h ∧ r.slot = slot
        ∧ r.priority = e.priority)
    ∧ (s.list h slot).Pairwise (fun e f => f.before e = false)
    ∧ (s.list h slot ≠ [] → (s.liveTile h slot).isSome = true)

/-- R135, R138: what the release of line `l` leaves: every list with the line's ASSERTED entries changed
or removed, CALLUP_CHANGE with the new top rule for each list whose top rule changed (each rule has one
entry of a list at most, R128), cause NOTICE where a key was added, and every other record as it was. -/
def Released (l : LineId) (s t : State) : Prop :=
  t = { s with port := t.port, lists := t.lists, notices := t.notices }
  ∧ (∀ h slot, t.list h slot = (s.list h slot).filterMap (releasedEntry s l h slot))
  ∧ (s.ListsOk → ∀ h slot, t.notices.get (.callupChange h slot) =
      if topRule (t.list h slot) = topRule (s.list h slot) then s.notices.get (.callupChange h slot)
      else some (.top (topRule (t.list h slot))))
  ∧ (∀ k, (∀ h slot, k ≠ .callupChange h slot) → t.notices.get k = s.notices.get k)
  ∧ t.port = { s.port with cause := { s.port.cause with notice := t.port.cause.notice } }
  ∧ Noticed s t

/-- R100: a bank binds no EMPTY tour. -/
def Bank.BindsDefined (b : Bank) (s : State) : Prop :=
  ∀ slot tile y, b.slots.get slot = some tile → tile.tour = some y → (s.tour y).isSome = true

/-- R100, R104: every DEFINED tour has 1 to 12 steps, every tour a tile binds is DEFINED, a runtime
exists for the touring LIVE slots and for no other, and its step lies within its tour. -/
def State.ToursOk (s : State) : Prop :=
  (∀ y t, s.tour y = some t → 1 ≤ t.steps.length ∧ t.steps.length ≤ 12)
  ∧ (∀ h, (s.dir h).working.BindsDefined s ∧ (s.dir h).live.BindsDefined s
      ∧ ∀ c, (s.dir h).commit = some c → c.bank.BindsDefined s)
  ∧ (∀ h slot, (s.runtime h slot).isSome = true ↔
      ∃ tile y, s.liveTile h slot = some tile ∧ tile.tour = some y)
  ∧ ∀ h slot t r, s.touring h slot = some (t, r) → r.step < t.steps.length

end Sys2Proof.Machine
end

