-- ==== Sys2Proof/Certificates/Slice0/Obligations.lean ====
section
/-! DEFINITION. The statements for the provers. Each docstring names the rules it rests on, or says
that it states the model's own choice and names the log entry. -/

open Sys2Proof Sys2Proof.Machine

/-! ### The queue, the processor and the answers -/

/-- One step with command `c` at the front of the queue is `exec c` on the state with the queue's
rest. -/
def Obligations.StepTakesTheFrontCommand : Prop :=
  ∀ (c : Instr) (rest : List Instr) (s : State),
    step { s with pending := c :: rest } = exec c { s with pending := rest }

/-- The model's choice (logs 1 and 23): with no command waiting, a step is one millisecond. By R67, R117,
R136 and R106 it lowers the running loss timers, debounce timers and holds, and the dwells that count, by
a millisecond down to 0; then, by R116, every line that has not taken its one sample of the millisecond
takes it, AL0 to AL15 in turn, and no event comes of it where no pin has moved since the sample before. -/
def Obligations.EmptyQueueIsOneMillisecond : Prop :=
  ∀ s : State, s.pending = [] → ∃ u t, step s = .next t
    ∧ u = { s with sources := u.sources, lines := u.lines, lists := u.lists, runtimes := u.runtimes }
    ∧ (∀ i, u.source i = { s.source i with lossTimer := (s.source i).lossTimer.map (· - 1) })
    ∧ (∀ l, u.line l = { s.line l with timer := (s.line l).timer.map (· - 1) })
    ∧ (∀ h slot, u.list h slot = (s.list h slot).map (fun e =>
        match e.state with
        | .holding left => { e with state := .holding (left - 1) }
        | .asserted | .latched => e))
    ∧ (∀ h slot, u.runtime h slot = (s.runtime h slot).map (fun r =>
        if r.state = .running ∧ (s.head h).state ≠ .stopped ∧ s.list h slot = []
        then { r with remaining := r.remaining - 1 } else r))
    ∧ ((∀ l, (s.line l).pinHigh = (s.line l).rawHigh) → t = { u with lines := t.lines }
      ∧ ∀ l, t.line l = { u.line l with sampled := false })
    ∧ ∃ f : Fin 17 → State, f 0 = u ∧ f (Fin.last 16) = t
      ∧ ∀ l : LineId, EndsMillisecond l (f l.castSucc) (f l.succ)

/-- No command stops the machine: the spec answers, discards or carries out every command in every
state. -/
def Obligations.EveryCommandHasANextState : Prop := ∀ (c : Instr) (s : State), Answers (exec c s)

/-- R148, R150: the read of a record is the fetch of the command the record spells. -/
def Obligations.FetchCarriesOutItsRecord : Prop :=
  ∀ (record : List Byte) (s : State),
    (exec (.fetch record) s = exec (decodeRecord record) s ∧ Answers (exec (.fetch record) s))
    ∧ (ringHeader (decodeRecord record)).isSome = true

/-- R148: a command whose room is not there is held in WAITING: the consumer has advanced, and no
record of the part has changed. -/
def Obligations.NoRoomHoldsTheCommand : Prop :=
  ∀ (i : Instr) (s : State), (ringHeader i).isSome = true → s.fetchUnderWay = true →
    s.hasRoom = false →
    exec i s = .next { s with port := { s.port with
      cmdConsumer := s.port.consumerAfter
      proc := .waiting
      held := some i
      path := if s.port.queue ≠ [] then some .completionWrite else none } }

/-- R149: LEAVE_WAITING carries out the held command once there is room, just as its fetch would have
done; until then the processor goes on waiting. -/
def Obligations.WaitingCommandIsCarriedOut : Prop :=
  (∀ (i : Instr) (s : State) (c : Nat), (ringHeader i).isSome = true → s.port.proc = .waiting →
    s.port.held = some i → s.hasRoom = true → s.port.path = none →
    (c + 1) % (2 * s.port.cmdSize) = s.port.cmdConsumer →
    ∃ t, exec .leaveWaiting s = .next t
      ∧ exec i { s with port := { s.port with
          proc := .fetching, path := some .fetch, held := none, cmdConsumer := c } } = .next t)
  ∧ (∀ (i : Instr) (s : State), s.port.proc = .waiting → s.port.held = some i → s.hasRoom = true →
    exec .leaveWaiting s = .next (execute i (s.setPort s.port.took)).settled)
  ∧ ∀ s : State, s.port.proc ≠ .waiting ∨ s.hasRoom = false → exec .leaveWaiting s = .next s

/-- R146, R148, R153, R154: what the port does by itself once a command is over: IDLE with a command
announced becomes FETCHING; a free path is granted to the completion writer first, then to the fetch or
the run of result writes, and to none while FAULTED; DRAINED mode raises CPL when its conditions hold at
once. -/
def Obligations.PortGoesOnByItself : Prop :=
  ∀ p : Port,
    let proc := if p.proc = .idle ∧ p.run = true ∧ p.cmdProducer ≠ p.cmdConsumer then .fetching else p.proc
    let path :=
      if p.path.isSome = true ∨ proc = .faulted then p.path
      else if p.queue ≠ [] then some .completionWrite
      else if proc = .fetching then some .fetch
      else if proc = .executing ∧ p.query.isSome = true then some .resultWrite
      else none
    let raises := p.mode = .drained ∧ p.mark = true ∧ p.queue = [] ∧ path ≠ some .completionWrite
      ∧ (proc = .stopped ∨ proc = .idle ∧ p.cmdProducer = p.cmdConsumer)
    p.settle = { p with
      proc, path
      mark := if raises then false else p.mark
      cause := if raises then { p.cause with cpl := true } else p.cause }

/-- R160: a notice under an absent key is added and sets cause NOTICE, one under a present key has its
value replaced and sets no cause; nothing else changes. -/
def Obligations.NoticeIsAddedOrReplaced : Prop :=
  ∀ (s : State) (k : NoticeKey) (v : NoticeValue),
    (s.raise k v).notices.get k = some v
    ∧ (∀ k', k' ≠ k → (s.raise k v).notices.get k' = s.notices.get k')
    ∧ s.raise k v = { s with
        notices := (s.raise k v).notices
        port := { s.port with cause := { s.port.cause with
          notice := if s.notices.get k = none then true else s.port.cause.notice } } }

/-- R150, R167: a record of an unknown code is answered BAD_COMMAND with detail 0, quiet or not, and
changes no record of the part. -/
def Obligations.UnknownCodeAnsweredBadCommand : Prop :=
  ∀ (h : Header) (code : Nat) (s : State), s.Ready →
    exec (.badCommand h code) s = .next (s.afterCommand
      [{ tag := h.tag, code, result := .badCommand, detail := 0, detail2 := 0 }])

/-- R14, R20, R21, R24, R29, R40, R41, R56, R57, R74, R75, R77, R92, R93, R101, R103, R111, R120, R124,
R126, R134, R137, R162, R167: a ring command with a reserved field that is not zero, or with an operand
outside its range, is answered BAD_ARGUMENT with detail 0 and changes no record of the part. -/
def Obligations.OperandOutOfRangeRefused : Prop :=
  ∀ (i : Instr) (h : Header) (code : Nat) (s : State), ringHeader i = some h → i.code = some code →
    (∀ h' code', i ≠ .badCommand h' code') → s.Ready →
    h.clean = false ∨ operandsInRange i = false →
    exec i s = .next (s.afterCommand (answers h code .badArgument 0))

/-- A ring command whose own completion carries a refusal has changed nothing but the port. -/
def Obligations.RefusedCommandChangesNothing : Prop :=
  ∀ (i : Instr) (h : Header) (code : Nat) (s t : State) (before : List Completion) (c : Completion),
    ringHeader i = some h → i.code = some code → s.Ready → exec i s = .next t →
    t.port.queue = before ++ [c] → c.tag = h.tag → c.code = code →
    s.port.queue = before →
    c.result ≠ .ok → c.result ≠ .superseded → c.result ≠ .cancelled →
    t = { s with port := t.port }

/-! ### Editing WORKING -/

/-- R12, R15: TILE_PLACE defines a FREE slot of WORKING with the record it carries, at the rank asked
(255: the bottom), the slots at and below it moving down; the detail is the rank. A rank above the number
of DEFINED slots that is not 255 is refused, and the list stands. -/
def Obligations.TilePlaceInsertsAtItsRank : Prop :=
  ∀ (h : Header) (hd : Head) (k : SlotId) (rank : Nat) (b : TileBlock) (t : Tile) (s : State),
    s.Ready → h.clean = true → tileInRange b = true → Carries b 31 t → rank ≤ 32 ∨ rank = 255 →
    let w := (s.dir hd).working
    let n := w.slots.count Option.isSome
    (rank ≤ n ∨ rank = 255 → GeometryPasses t → w.slots.get k = none → TourIsDefined s t →
      let r := if rank = 255 then n else rank
      exec (.tilePlace h (codeHead hd) k.val rank b) s = .next
        ((s.withWorking hd { slots := w.slots.set k (some t)
                             order := w.order.take r ++ k :: w.order.drop r }).afterCommand
          (answers h 0x10 .ok r)))
    ∧ (n < rank → rank ≠ 255 →
      exec (.tilePlace h (codeHead hd) k.val rank b) s = .next
        (s.afterCommand (answers h 0x10 .badArgument 0)))

/-- R14: the checks of TILE_PLACE after step 1, in their order: BAD_GEOMETRY, then SLOT_IN_USE, then
TOUR_EMPTY, each with detail 0 and without effect. -/
def Obligations.TilePlaceChecksInOrder : Prop :=
  ∀ (h : Header) (hd : Head) (k : SlotId) (rank : Nat) (b : TileBlock) (t : Tile) (s : State),
    s.Ready → h.clean = true → tileInRange b = true → Carries b 31 t →
    let w := (s.dir hd).working
    rank ≤ 32 ∧ rank ≤ w.slots.count Option.isSome ∨ rank = 255 →
    (¬ GeometryPasses t → exec (.tilePlace h (codeHead hd) k.val rank b) s
        = .next (s.afterCommand (answers h 0x10 .badGeometry 0)))
    ∧ (GeometryPasses t → w.slots.get k ≠ none →
        exec (.tilePlace h (codeHead hd) k.val rank b) s
        = .next (s.afterCommand (answers h 0x10 .slotInUse 0)))
    ∧ (GeometryPasses t → w.slots.get k = none → ¬ TourIsDefined s t →
        exec (.tilePlace h (codeHead hd) k.val rank b) s
        = .next (s.afterCommand (answers h 0x10 .tourEmpty 0)))

/-- R14, R16: TILE_MODIFY replaces the selected groups of a DEFINED slot's record, each whole, after the
checks on the whole record; the slot keeps its rank, which is the detail. A FREE slot is answered
SLOT_FREE. -/
def Obligations.TileModifyReplacesSelectedGroups : Prop :=
  ∀ (h : Header) (hd : Head) (k : SlotId) (groups : Nat) (b : TileBlock) (s : State),
    s.Ready → h.clean = true → 1 ≤ groups → groups ≤ 31 → selectedInRange groups b = true →
    let w := (s.dir hd).working
    (w.slots.get k = none → exec (.tileModify h (codeHead hd) k.val groups b) s
        = .next (s.afterCommand (answers h 0x11 .slotFree 0)))
    ∧ ∀ old t, w.slots.get k = some old → Carries b groups t → AgreeElsewhere groups t old →
      (¬ GeometryPasses t → exec (.tileModify h (codeHead hd) k.val groups b) s
          = .next (s.afterCommand (answers h 0x11 .badGeometry 0)))
      ∧ (GeometryPasses t → groups.testBit 3 = true → ¬ TourIsDefined s t →
          exec (.tileModify h (codeHead hd) k.val groups b) s
          = .next (s.afterCommand (answers h 0x11 .tourEmpty 0)))
      ∧ (GeometryPasses t → groups.testBit 3 = false ∨ TourIsDefined s t →
          exec (.tileModify h (codeHead hd) k.val groups b) s = .next
            ((s.withWorking hd { w with slots := w.slots.set k (some t) }).afterCommand
              (answers h 0x11 .ok (w.order.idxOf k))))

/-- R13, R18 to R21: TILE_RESTACK, TILE_RETIRE, LAYOUT_CLEAR and LAYOUT_REVERT, each with its detail, and
SLOT_FREE for the first two on a FREE slot. -/
def Obligations.RestackRetireClearRevert : Prop :=
  ∀ (h : Header) (hd : Head) (k : SlotId) (rank : Nat) (s : State), s.Ready → h.clean = true →
    let w := (s.dir hd).working
    let shorter := w.order.filter (fun j => j ≠ k)
    let r := if rank ≤ shorter.length then rank else shorter.length
    (w.slots.get k ≠ none → rank ≤ 31 ∨ rank = 255 →
      exec (.tileRestack h (codeHead hd) k.val rank) s = .next
        ((s.withWorking hd { w with order := shorter.take r ++ k :: shorter.drop r }).afterCommand
          (answers h 0x12 .ok r)))
    ∧ (w.slots.get k = none → rank ≤ 31 ∨ rank = 255 →
      exec (.tileRestack h (codeHead hd) k.val rank) s
        = .next (s.afterCommand (answers h 0x12 .slotFree 0)))
    ∧ (w.slots.get k ≠ none → exec (.tileRetire h (codeHead hd) k.val) s = .next
        ((s.withWorking hd { slots := w.slots.set k none, order := shorter }).afterCommand
          (answers h 0x13 .ok (w.order.idxOf k))))
    ∧ (w.slots.get k = none → exec (.tileRetire h (codeHead hd) k.val) s
        = .next (s.afterCommand (answers h 0x13 .slotFree 0)))
    ∧ exec (.layoutClear h (codeHead hd)) s = .next
        ((s.withWorking hd { slots := .fill 32 none, order := [] }).afterCommand
          (answers h 0x14 .ok (w.slots.count Option.isSome)))
    ∧ exec (.layoutRevert h (codeHead hd)) s = .next
        ((s.withWorking hd (s.dir hd).live).afterCommand
          (answers h 0x15 .ok ((s.dir hd).live.slots.count Option.isSome)))

/-! ### Committing a layout -/

/-- R24, R27, R31, R32, R44: on a STOPPED head LAYOUT_COMMIT makes the copy of WORKING the LIVE bank at
once, with its carry-over, a slot it makes DEFINED showing NONE until the next frame start, and completes
OK with detail 0. -/
def Obligations.CommitOnStoppedHead : Prop :=
  ∀ (h : Header) (hd : Head) (s : State), s.Ready → h.clean = true → s.HeadsOk → s.ToursOk →
    (s.head hd).state = .stopped →
    ∃ t, exec (.layoutCommit h (codeHead hd)) s = .next t
      ∧ t = { s with port := t.port, runtimes := t.runtimes, lists := t.lists, notices := t.notices
                     dirs := s.dirs.set hd { s.dir hd with live := (s.dir hd).working }
                     heads := s.heads.set hd { s.head hd with
                      view := { (s.head hd).view with shown := (t.head hd).view.shown } } }
      ∧ CarriedOver hd (s.dir hd).live (s.dir hd).working s t
      ∧ PortLeft s t (answers h 0x16 .ok 0)

/-- R24, R25: on a RUNNING or STOPPING head LAYOUT_COMMIT is deferred with a copy of WORKING, and an
earlier pending commit is SUPERSEDED, with a completion of its own where it is ANSWERED. -/
def Obligations.CommitDeferredOnDrawingHead : Prop :=
  ∀ (h : Header) (hd : Head) (s : State), s.Ready → h.clean = true → (s.head hd).state ≠ .stopped →
    exec (.layoutCommit h (codeHead hd)) s = .next
      ((s.setDir hd { s.dir hd with
          commit := some
            { bank := (s.dir hd).working, tag := h.tag, quiet := h.quiet, answered := true } }).afterCommand
        (match (s.dir hd).commit with
          | some c => if c.answered then
              [{ tag := c.tag, code := 0x16, result := .superseded, detail := 0, detail2 := 0 }]
              else []
          | none => []))

/-- R29: LAYOUT_CANCEL ends a pending commit unapplied, its own CANCELLED completion first where it is
ANSWERED; with none pending it is answered NOTHING_PENDING; a head code or a reserved field that is wrong
is refused without effect. -/
def Obligations.CancelWithdrawsPendingCommit : Prop :=
  ∀ (h : Header) (hd : Head) (s : State), s.Ready → h.clean = true →
    ((s.dir hd).commit = none → exec (.layoutCancel h (codeHead hd)) s
      = .next (s.afterCommand (answers h 0x17 .nothingPending 0)))
    ∧ (∀ c, (s.dir hd).commit = some c →
      exec (.layoutCancel h (codeHead hd)) s = .next
        ((s.setDir hd { s.dir hd with commit := none }).afterCommand
          (if c.answered then
            { tag := c.tag, code := 0x16, result := .cancelled, detail := 0, detail2 := 0 }
              :: answers h 0x17 .ok 1
            else answers h 0x17 .ok 0)))
    ∧ ∀ (h' : Header) (head : Nat), h'.clean = false ∨ 2 ≤ head →
      exec (.layoutCancel h' head) s = .next (s.afterCommand (answers h' 0x17 .badArgument 0))

/-! ### Heads -/

/-- R40, R56, R57: HEAD_START of a STOPPED head (HEAD_BUSY otherwise), PALETTE_SET and
HEAD_BACKGROUND. -/
def Obligations.HeadStartPaletteAndBackground : Prop :=
  ∀ (h : Header) (hd : Head) (std : Standard) (colour : ColourId) (y cb cr : Byte) (s : State),
    s.Ready → h.clean = true →
    ((s.head hd).state = .stopped →
      exec (.headStart h (codeHead hd) (codeStandard (some std))) s = .next
        ((s.setHead hd
            { s.head hd with state := .running, standard := std, frameNumber := 0 }).afterCommand
          (answers h 0x20 .ok 0)))
    ∧ ((s.head hd).state ≠ .stopped →
      exec (.headStart h (codeHead hd) (codeStandard (some std))) s
        = .next (s.afterCommand (answers h 0x20 .headBusy 0)))
    ∧ exec (.paletteSet h colour.val y.toNat cb.toNat cr.toNat) s = .next
        ((s.setColour colour { y, cb, cr }).afterCommand
          (answers h 0x22 .ok 0))
    ∧ exec (.headBackground h (codeHead hd) colour.val) s = .next
        ((s.setHead hd { s.head hd with background := colour }).afterCommand
          (answers h 0x23 .ok 0))

/-- R41, R27, R28, R59: HEAD_STOP by the head's state: STOPPING with the frame in flight as detail; STOPPED
at once where no frame is in flight, its port at the idle level, a pending commit applied with detail 0
and answered before the HEAD_STOP; no effect on a STOPPING or STOPPED head. -/
def Obligations.HeadStopByState : Prop :=
  ∀ (h : Header) (hd : Head) (s : State), s.Ready → h.clean = true → s.ToursOk →
    ((s.head hd).state = .running → (s.head hd).inFlight = true →
      exec (.headStop h (codeHead hd)) s = .next
        ((s.setHead hd { s.head hd with state := .stopping }).afterCommand (answers h 0x21 .ok (s.head hd).frameNumber.toNat)))
    ∧ ((s.head hd).state ≠ .running → exec (.headStop h (codeHead hd)) s
        = .next (s.afterCommand (answers h 0x21 .ok 0)))
    ∧ ((s.head hd).state = .running → (s.head hd).inFlight = false → (s.dir hd).commit = none →
      exec (.headStop h (codeHead hd)) s = .next
        ((s.setHead hd
            { s.head hd with state := .stopped, sending := false
                             claims := .fill 16 none }).afterCommand (answers h 0x21 .ok 0)))
    ∧ ∀ c, (s.head hd).state = .running → (s.head hd).inFlight = false →
      (s.dir hd).commit = some c →
      ∃ t, exec (.headStop h (codeHead hd)) s = .next t
        ∧ t = { s with port := t.port, runtimes := t.runtimes, lists := t.lists, notices := t.notices
                       dirs := s.dirs.set hd { s.dir hd with live := c.bank, commit := none }
                       heads := s.heads.set hd { s.head hd with
                        state := .stopped, sending := false, claims := .fill 16 none
                        view := { (s.head hd).view with shown := (t.head hd).view.shown } } }
        ∧ CarriedOver hd (s.dir hd).live c.bank s t
        ∧ PortLeft s t
          ((if c.answered = true ∧ c.quiet = false then
              [{ tag := c.tag, code := 0x16, result := .ok, detail := 0, detail2 := 0 }] else [])
            ++ answers h 0x21 .ok 0)

/-- R39, R43 to R47, R86, R94: with no commit pending, the frame start of a RUNNING head takes the next
frame number, latches the shown source of every slot (call-up first, tour step next, source field last),
the state and masks of every shown source, the palette and the background, claims each shown source's
newest page and raises the head's frame cause. A head that is not RUNNING, or has a frame in flight, takes
no frame start. -/
def Obligations.FrameStartLatchesAndClaims : Prop :=
  ∀ (hd : Head) (s : State),
    ((s.head hd).state ≠ .running ∨ (s.head hd).inFlight = true →
      exec (.frameStart hd) s = .next s)
    ∧ ((s.head hd).state = .running → (s.head hd).inFlight = false → (s.dir hd).commit = none →
      ∃ t, exec (.frameStart hd) s = .next t
        ∧ t = { s with port := t.port, heads := s.heads.set hd (t.head hd) }
        ∧ t.head hd = { s.head hd with
            frameNumber := (s.head hd).frameNumber + 1, inFlight := true, sending := true
            view := (t.head hd).view, claims := (t.head hd).claims }
        ∧ (∀ slot, (t.head hd).view.shown.get slot =
            (s.liveTile hd slot).bind (fun tile =>
              match s.list hd slot with
              | e :: _ => (s.rule e.rule).map (fun r => r.source)
              | [] => match s.touring hd slot with
                | some (tour, r) => (tour.steps[r.step]?).map (fun st => st.source)
                | none => tile.source))
        ∧ (∀ i, (t.head hd).view.states.get i =
            if ∃ slot, (t.head hd).view.shown.get slot = some i then some (s.source i).state else none)
        ∧ (∀ i, (t.head hd).view.masks.get i =
            if ∃ slot, (t.head hd).view.shown.get slot = some i then some (s.masks.get i) else none)
        ∧ (t.head hd).view.palette = s.palette
        ∧ (t.head hd).view.background = (s.head hd).background
        ∧ (∀ i, (t.head hd).claims.get i =
            if ∃ slot, (t.head hd).view.shown.get slot = some i then (s.page i).newest else none)
        ∧ t.port = Port.settle { s.port with cause := { s.port.cause with
            frameA := s.port.cause.frameA || hd = .a
            frameB := s.port.cause.frameB || hd = .b } })

/-- R26, R28, R32: with a commit pending, the frame start of a RUNNING head first makes the PENDING bank
LIVE, delivers the carry-over and ends the record, with a completion OK that carries the frame number
where the record is ANSWERED and not quiet; the rest of the frame start finds the new LIVE bank. -/
def Obligations.FrameStartAppliesPendingCommit : Prop :=
  ∀ (hd : Head) (s : State) (c : CommitRecord), s.ToursOk → (s.head hd).state = .running →
    (s.head hd).inFlight = false → (s.dir hd).commit = some c →
    ∃ u t, exec (.frameStart hd) s = .next t
      ∧ u = { s with port := u.port, runtimes := u.runtimes, lists := u.lists, notices := u.notices
                     dirs := s.dirs.set hd { s.dir hd with live := c.bank, commit := none }
                     heads := s.heads.set hd { s.head hd with
                      view := { (s.head hd).view with shown := (u.head hd).view.shown } } }
      ∧ CarriedOver hd (s.dir hd).live c.bank s u ∧ Noticed s u
      ∧ u.port = { s.port with
          cause := { s.port.cause with notice := u.port.cause.notice }
          queue := s.port.queue ++ (if c.answered = true ∧ c.quiet = false then
            [{ tag := c.tag, code := 0x16, result := .ok
               detail := ((s.head hd).frameNumber + 1).toNat, detail2 := 0 }] else [])
          mark := s.port.mark || (c.answered && !c.quiet) }
      ∧ ∃ v, exec (.frameStart hd) u = .next v ∧ t = v

/-- R48, R41, R27, R59: at its frame end a head releases its claims; a STOPPING head becomes STOPPED, and its
pending commit is applied with detail 0. A head that is STOPPED or has no frame in flight takes no frame
end. -/
def Obligations.FrameEndReleasesClaims : Prop :=
  ∀ (hd : Head) (s : State), s.ToursOk →
    ((s.head hd).state = .stopped ∨ (s.head hd).inFlight = false → exec (.frameEnd hd) s = .next s)
    ∧ ((s.head hd).inFlight = true → (s.head hd).state = .running →
      exec (.frameEnd hd) s = .next { s with
        heads := s.heads.set hd { s.head hd with inFlight := false, claims := .fill 16 none }
        port := s.port.settle })
    ∧ ((s.head hd).inFlight = true → (s.head hd).state = .stopping → (s.dir hd).commit = none →
      exec (.frameEnd hd) s = .next { s with
        heads := s.heads.set hd
          { s.head hd with state := .stopped, inFlight := false, sending := false
                           claims := .fill 16 none }
        port := s.port.settle })
    ∧ ∀ c, (s.head hd).inFlight = true → (s.head hd).state = .stopping →
      (s.dir hd).commit = some c →
      ∃ t, exec (.frameEnd hd) s = .next t
        ∧ t = { s with port := t.port, runtimes := t.runtimes, lists := t.lists, notices := t.notices
                       dirs := s.dirs.set hd { s.dir hd with live := c.bank, commit := none }
                       heads := s.heads.set hd { s.head hd with
                        state := .stopped, inFlight := false, sending := false, claims := .fill 16 none
                        view := { (s.head hd).view with shown := (t.head hd).view.shown } } }
        ∧ CarriedOver hd (s.dir hd).live c.bank s t ∧ Noticed s t
        ∧ t.port = Port.settle { s.port with
            cause := { s.port.cause with notice := t.port.cause.notice }
            queue := s.port.queue ++ (if c.answered = true ∧ c.quiet = false then
              [{ tag := c.tag, code := 0x16, result := .ok, detail := 0, detail2 := 0 }] else [])
            mark := s.port.mark || (c.answered && !c.quiet) }

/-! ### Sources -/

/-- R68, R73 to R77, R84, R85: SOURCE_SET (and its PORT_IN_USE), SOURCE_DISABLE, LOCK_PARAMS and the
expiry of a loss timer: the source's record, its page table and its notice. That a vertical-blank code
before the expiry arms no field start (log 25), and that an abandoned frame gives its page its height
(log 26), is the model's reading. -/
def Obligations.SourceCommandsAndLossExpiry : Prop :=
  ∀ (h : Header) (i : SourceId) (s : State),
    (∀ (p : PortId) (e : Expect) (hStart vStart : Nat) (swap : Bool), s.Ready → h.clean = true →
      hStart ≤ 16 → hStart % 2 = 0 → vStart ≤ 15 →
      let c : Instr := .sourceSet h { source := i.val, port := p.val, expect := codeExpect e
                                      hStart, vStart, fieldSwap := codeYesNo swap }
      (∀ k : SourceId, k ≠ i → (s.source k).state ≠ .off → (s.source k).port = p →
        (∀ j : SourceId, j < k → j ≠ i → (s.source j).state ≠ .off → (s.source j).port ≠ p) →
        exec c s = .next (s.afterCommand (answers h 0x30 .portInUse k.val)))
      ∧ ((∀ k, k ≠ i → (s.source k).state ≠ .off → (s.source k).port ≠ p) →
        let u : State := { s with
          pages := s.pages.set i { s.page i with
            writer := none, newest := none, heights := heightsEnded (s.page i) }
          sources := s.sources.set i
            { enabled := true, port := p, expect := e, hStart, vStart, fieldSwap := swap
              state := .searching, standard := none, goodRun := 0, badRun := 0, candidate := none
              lastBit := none, lossTimer := some s.params.lossTimeout, sawBlank := false
              lineOpen := false, field := none } }
        exec c s = .next
          ((if (s.source i).state = .searching then u
            else u.raise (.sourceState i) (.state .searching)).afterCommand (answers h 0x30 .ok 0))))
    ∧ (s.Ready → h.clean = true → (s.source i).state = .off →
      exec (.sourceDisable h i.val) s = .next (s.afterCommand (answers h 0x31 .ok 0)))
    ∧ (s.Ready → h.clean = true → (s.source i).state ≠ .off →
      exec (.sourceDisable h i.val) s = .next
        ((({ s with
            pages := s.pages.set i { s.page i with
            writer := none, newest := none, heights := heightsEnded (s.page i) }
            sources := s.sources.set i { s.source i with
              enabled := false, state := .off, standard := none, goodRun := 0, badRun := 0
              candidate := none, lastBit := none, lossTimer := none, sawBlank := false
              lineOpen := false, field := none } } : State).raise (.sourceState i)
            (.state .off)).afterCommand (answers h 0x31 .ok 0)))
    ∧ (∀ lockCount unstableLimit lossTimeout : Nat, s.Ready → h.clean = true →
      2 ≤ lockCount → lockCount ≤ 15 → 2 ≤ unstableLimit → unstableLimit ≤ 31 →
      20 ≤ lossTimeout → lossTimeout ≤ 1000 → lossTimeout % 20 = 0 →
      exec (.lockParams h lockCount unstableLimit lossTimeout) s = .next
        (({ s with params := { lockCount, unstableLimit, lossTimeout } } : State).afterCommand
          (answers h 0x32 .ok 0)))
    ∧ ((s.source i).state ≠ .off → (s.source i).lossTimer = some 0 →
      let u : State := { s with
        pages := s.pages.set i { s.page i with writer := none, heights := heightsEnded (s.page i) }
        sources := s.sources.set i { s.source i with
          state := .lost, goodRun := 0, badRun := 0, candidate := none, lastBit := none
          lossTimer := none, sawBlank := false, lineOpen := false, field := none } }
      exec (.lossTimerExpiry i) s = .next
        (if (s.source i).state = .lost then u else u.raise (.sourceState i) (.state .lost)))
    ∧ ((s.source i).state = .off ∨ (s.source i).lossTimer ≠ some 0 →
      exec (.lossTimerExpiry i) s = .next s)

/-- R65 to R67, R69 to R73 and table 4-2: the code with the vertical-blank flag that ends a field of the
owned port (ActiveLineStoredAtItsPlace says how a code first closes a line that is open, and how the field
end of R63 is forced): the field is measured by its count of active lines (R65) and judged, the source's
counters, standard, candidate and state follow the table, the last field bit is that of the field, the loss
timer is restarted, and SOURCE_STATE is raised where the state changes. -/
def Obligations.FieldVerdictMovesTheLockState : Prop :=
  ∀ (p : PortId) (flags : Byte) (bytes : List Byte) (i : SourceId) (f : FieldInProgress) (s : State),
    s.owner p = some i → codeFree bytes = true → flags.getLsbD 5 = true →
    (s.source i).lineOpen = false → (s.source i).field = some f →
    ∃ t, exec (.timingCode p flags bytes) s = .next t
      ∧ t = { s with port := t.port, sources := s.sources.set i (t.source i)
                     pages := s.pages.set i (t.page i), store := t.store, notices := t.notices }
      ∧ (let r := s.source i
         let r' := t.source i
         let std := measured f.lines
         let count := s.params.lockCount
         (std = some .s525 ↔ 240 ≤ f.lines ∧ f.lines ≤ 244)
         ∧ (std = some .s625 ↔ 286 ≤ f.lines ∧ f.lines ≤ 290)
         ∧ r' = { r with
            state := r'.state, goodRun := r'.goodRun, badRun := r'.badRun
            standard := r'.standard, candidate := r'.candidate, lastBit := some f.bit
            lossTimer := some s.params.lossTimeout, sawBlank := true, field := none }
         ∧ (r.state = .searching → FieldGood r f →
            r'.goodRun = (if r.candidate = none ∨ r.candidate = std then r.goodRun + 1 else 1)
            ∧ r'.candidate = std
            ∧ (count ≤ r'.goodRun → r'.state = .locked ∧ r'.standard = std ∧ r'.badRun = 0)
            ∧ (r'.goodRun < count →
                r'.state = .searching ∧ r'.standard = r.standard ∧ r'.badRun = r.badRun))
         ∧ (r.state = .searching → ¬ FieldGood r f →
            r'.goodRun = 0 ∧ r'.badRun = r.badRun ∧ r'.candidate = r.candidate
            ∧ r'.standard = r.standard ∧ r'.state = .searching)
         ∧ (r.state = .locked → FieldGood r f →
            r'.goodRun = r.goodRun ∧ r'.badRun = r.badRun ∧ r'.candidate = r.candidate
            ∧ r'.standard = r.standard ∧ r'.state = .locked)
         ∧ (r.state = .locked → ¬ FieldGood r f →
            r'.goodRun = 0 ∧ r'.badRun = 1 ∧ r'.candidate = r.candidate
            ∧ r'.standard = r.standard ∧ r'.state = .unstable)
         ∧ (r.state = .unstable → FieldGood r f →
            r'.goodRun = r.goodRun + 1 ∧ r'.candidate = r.candidate ∧ r'.standard = r.standard
            ∧ (count ≤ r.goodRun + 1 → r'.state = .locked ∧ r'.badRun = 0)
            ∧ (r.goodRun + 1 < count → r'.state = .unstable ∧ r'.badRun = r.badRun))
         ∧ (r.state = .unstable → ¬ FieldGood r f →
            r'.goodRun = 0 ∧ r'.candidate = r.candidate ∧ r'.standard = r.standard
            ∧ (s.params.unstableLimit ≤ r.badRun + 1 → r'.state = .lost ∧ r'.badRun = 0)
            ∧ (r.badRun + 1 < s.params.unstableLimit →
                r'.state = .unstable ∧ r'.badRun = r.badRun + 1))
         ∧ (r.state = .lost → FieldGood r f →
            r'.goodRun = 1 ∧ r'.badRun = 0 ∧ r'.candidate = std ∧ r'.standard = none
            ∧ r'.state = .searching)
         ∧ (r.state = .lost → ¬ FieldGood r f →
            r'.goodRun = r.goodRun ∧ r'.badRun = r.badRun ∧ r'.candidate = r.candidate
            ∧ r'.standard = r.standard ∧ r'.state = .lost))
      ∧ Noticed s t
      ∧ t.port = { s.port with cause := { s.port.cause with notice := t.port.cause.notice } }
      ∧ (∀ k, k ≠ .sourceState i → t.notices.get k = s.notices.get k)
      ∧ t.notices.get (.sourceState i) =
          if (t.source i).state = (s.source i).state then s.notices.get (.sourceState i)
          else some (.state (t.source i).state)

/-- R66, R79, R80, R82 to R85: the page table at that field end. Leaving LOCKED and UNSTABLE abandons the
writer; a top field sets the top verdict; a bottom field completes the writer page as newest, with one more
frame counted, when both fields are good, and discards it otherwise; the page of a writer that ends takes
the height it stored (of an abandoned one the model's reading, log 26); entry to LOCKED from SEARCHING
clears the newest page; a source that stays LOCKED or UNSTABLE without a writer keeps its table. The stored
lines of the field for which no line came are black, and no other byte of the SDRAM changes; where these lines
stand in the SDRAM is the model's choice (log 7). -/
def Obligations.PageTableAtFieldEnd : Prop :=
  ∀ (p : PortId) (flags : Byte) (bytes : List Byte) (i : SourceId) (f : FieldInProgress) (s t : State),
    s.owner p = some i → codeFree bytes = true → flags.getLsbD 5 = true →
    (s.source i).lineOpen = false → (s.source i).field = some f →
    exec (.timingCode p flags bytes) s = .next t →
    (¬ Written (t.source i).state →
      t.page i = { s.page i with writer := none, heights := heightsEnded (s.page i) })
    ∧ (Written (t.source i).state → (s.source i).state = .searching → (s.page i).writer = none →
      t.page i = { s.page i with newest := none })
    ∧ (Written (t.source i).state → Written (s.source i).state → (s.page i).writer = none →
      t.page i = s.page i)
    ∧ (Written (t.source i).state → Written (s.source i).state → ∀ w,
      (s.page i).writer = some w →
      (f.bit = (s.source i).fieldSwap → ∃ v, (v = true ↔ FieldGood (s.source i) f)
        ∧ t.page i = { s.page i with writer := some { w with top := some v } })
      ∧ (f.bit ≠ (s.source i).fieldSwap → w.top = some true → FieldGood (s.source i) f →
        t.page i = { newest := some w.page, writer := none
                     heights := (s.page i).heights.set w.page w.height
                     count := (s.page i).count + 1 })
      ∧ (f.bit ≠ (s.source i).fieldSwap → ¬ (w.top = some true ∧ FieldGood (s.source i) f) →
        t.page i = { s.page i with
          writer := none, heights := (s.page i).heights.set w.page w.height }))
    ∧ ((s.page i).writer = none → t.store = s.store)
    ∧ (s.StoreOk → ∀ w, (s.page i).writer = some w →
      let line := fun n => lineAddress i w.page
        (2 * n + (if f.bit = (s.source i).fieldSwap then 0 else 1))
      (∀ n k, n < w.height / 2 → f.lines ≤ n + (s.source i).vStart → k < 1440 →
        Memory.read t.store (line n + k) = if k % 2 = 0 then 128 else 16)
      ∧ ∀ b, (∀ n, n < w.height / 2 → f.lines ≤ n + (s.source i).vStart →
          b < line n ∨ line n + 1440 ≤ b) →
        Memory.read t.store b = Memory.read s.store b)

/-- R61, R62, R63, R67, R81: the start-of-active code that begins the first active line after a
vertical-blank code starts a field and the loss timer anew; a top field abandons any writer and, in LOCKED
or UNSTABLE, starts one on the lowest-numbered page that is neither newest nor held (the abandoned
writer's page takes its height, log 26). Where no line is open,
any other start-of-active code without the vertical-blank flag opens a line, an end-of-active code without
it does no more than restart the loss timer, and a code with it, in no field, arms the next field start. A
code on a port no source owns has no effect. -/
def Obligations.FieldStartBeginsAWriter : Prop :=
  ∀ (p : PortId) (flags : Byte) (bytes : List Byte) (s : State),
    (s.owner p = none → exec (.timingCode p flags bytes) s = .next s)
    ∧ ∀ i, s.owner p = some i → codeFree bytes = true → (s.source i).lineOpen = false →
      (flags.getLsbD 5 = false → flags.getLsbD 4 = false →
        (s.source i).sawBlank = true → (s.source i).field = none →
        ∃ t, exec (.timingCode p flags bytes) s = .next t
          ∧ t = { s with
              sources := s.sources.set i { s.source i with
                lossTimer := some s.params.lossTimeout, lineOpen := true, sawBlank := false
                field := some { bit := flags.getLsbD 6, lines := 0, wellFormed := true } }
              pages := s.pages.set i (t.page i) }
          ∧ (flags.getLsbD 6 ≠ (s.source i).fieldSwap → t.page i = s.page i)
          ∧ (flags.getLsbD 6 = (s.source i).fieldSwap → ¬ Written (s.source i).state →
            t.page i = { s.page i with writer := none, heights := heightsEnded (s.page i) })
          ∧ (flags.getLsbD 6 = (s.source i).fieldSwap → Written (s.source i).state →
            ∀ q : PageId, (s.page i).newest ≠ some q → (∀ hd, s.holds hd i q = false) →
            (∀ q' : PageId, q' < q → (s.page i).newest = some q' ∨ ∃ hd, s.holds hd i q' = true) →
            t.page i = { s.page i with
              heights := heightsEnded (s.page i)
              writer := some
                { page := q, top := none
                  height := if (s.source i).standard = some .s625 then 576 else 480 } }))
      ∧ (flags.getLsbD 5 = false → flags.getLsbD 4 = false →
        (s.source i).sawBlank = false ∨ (s.source i).field ≠ none →
        exec (.timingCode p flags bytes) s = .next (s.setSource i { s.source i with
          lossTimer := some s.params.lossTimeout, lineOpen := true }))
      ∧ (flags.getLsbD 5 = false → flags.getLsbD 4 = true →
        exec (.timingCode p flags bytes) s = .next (s.setSource i { s.source i with
          lossTimer := some s.params.lossTimeout }))
      ∧ (flags.getLsbD 5 = true → (s.source i).field = none →
        exec (.timingCode p flags bytes) s = .next (s.setSource i { s.source i with
          lossTimer := some s.params.lossTimeout, sawBlank := true }))

/-- R62, R63, R64, R67, R82: a code closes the active line that is open. A line of the field is counted,
and is well formed where the code is an end-of-active code and 1440 bytes came; with a writer its bytes go,
from sample h_start on, to the stored line that v_start and the field's parity give, with black at its end,
and no other byte of the SDRAM changes. After that the code acts as FieldVerdictMovesTheLockState,
PageTableAtFieldEnd and FieldStartBeginsAWriter say of a code where no line is open; and the field's 291st
line forces the field end that a vertical-blank code takes, but arms no field start. A line in no field is
closed alone. -/
def Obligations.ActiveLineStoredAtItsPlace : Prop :=
  ∀ (p : PortId) (flags : Byte) (bytes : List Byte) (i : SourceId) (s : State),
    s.StoreOk → s.SourcesOk → s.owner p = some i → codeFree bytes = true →
    (s.source i).lineOpen = true →
    ((s.source i).field = none → exec (.timingCode p flags bytes) s
      = exec (.timingCode p flags []) (s.setSource i { s.source i with lineOpen := false }))
    ∧ ∀ f, (s.source i).field = some f →
      ∃ u, u = { s with
          store := u.store
          sources := s.sources.set i { s.source i with
            lineOpen := false
            field := some { f with
              lines := f.lines + 1
              wellFormed := f.wellFormed && flags.getLsbD 4 && bytes.length = 1440 } } }
      ∧ (∀ w, (s.page i).writer = some w → (s.source i).vStart ≤ f.lines →
        f.lines - (s.source i).vStart < w.height / 2 →
        let a := lineAddress i w.page
          (2 * (f.lines - (s.source i).vStart) + (if f.bit = (s.source i).fieldSwap then 0 else 1))
        (∀ b, b < a ∨ a + 1440 ≤ b → Memory.read u.store b = Memory.read s.store b)
        ∧ (bytes.length = 1440 → ∀ k, k < 1440 → Memory.read u.store (a + k) =
            if k + 2 * (s.source i).hStart < 1440 then bytes.getD (k + 2 * (s.source i).hStart) 0
            else if k % 2 = 0 then 128 else 16))
      ∧ ((∀ w, (s.page i).writer = some w → f.lines < (s.source i).vStart
          ∨ w.height / 2 ≤ f.lines - (s.source i).vStart) → u.store = s.store)
      ∧ (f.lines < 290 → exec (.timingCode p flags bytes) s = exec (.timingCode p flags []) u
        ∧ (flags.getLsbD 5 = false → flags.getLsbD 4 = true →
          exec (.timingCode p flags bytes) s = .next (u.setSource i { u.source i with
            lossTimer := some s.params.lossTimeout })))
      ∧ (290 ≤ f.lines → ∀ (g : Byte) (v : State), g.getLsbD 5 = true →
        exec (.timingCode p g []) u = .next v →
        exec (.timingCode p flags bytes) s = exec (.timingCode p flags [])
          (v.setSource i { v.source i with sawBlank := (s.source i).sawBlank }))

/-! ### Masks -/

/-- R92, R93: MASK_SET places a mask, whatever the slot held, with the number of masks the source then has
as detail, and is answered BAD_GEOMETRY where the region leaves the frame; MASK_CLEAR empties one slot or
all, with the number emptied as detail; both refuse operands outside their ranges, and reserved fields
that are not zero, without effect. -/
def Obligations.MaskSetAndClear : Prop :=
  ∀ (h : Header) (i : SourceId) (k : MaskId) (m : Mask) (s : State), s.Ready → h.clean = true →
    (m.x ≤ 718 → m.x % 2 = 0 → m.y ≤ 575 → 2 ≤ m.w → m.w ≤ 720 → m.w % 2 = 0 → 1 ≤ m.h →
      m.h ≤ 576 → maskParameterInRange (codeMaskKind m.kind).1 (codeMaskKind m.kind).2 = true →
      (720 < m.x + m.w ∨ 576 < m.y + m.h →
        exec (.maskSet h (codeMask i k m)) s
          = .next (s.afterCommand (answers h 0x38 .badGeometry 0)))
      ∧ (m.x + m.w ≤ 720 → m.y + m.h ≤ 576 →
        let slots := (s.masks.get i).set k (some m)
        exec (.maskSet h (codeMask i k m)) s = .next
          (({ s with masks := s.masks.set i slots } : State).afterCommand
            (answers h 0x38 .ok (slots.count Option.isSome)))))
    ∧ exec (.maskClear h i.val k.val) s = .next
        (({ s with masks := s.masks.set i ((s.masks.get i).set k none) } : State).afterCommand
          (answers h 0x39 .ok (if ((s.masks.get i).get k).isSome then 1 else 0)))
    ∧ exec (.maskClear h i.val 255) s = .next
        (({ s with masks := s.masks.set i (.fill 4 none) } : State).afterCommand
          (answers h 0x39 .ok ((s.masks.get i).count Option.isSome)))
    ∧ ∀ h' : Header,
      (∀ a : MaskArgs, h'.clean = false ∨ operandsInRange (.maskSet h' a) = false →
        exec (.maskSet h' a) s = .next (s.afterCommand (answers h' 0x38 .badArgument 0)))
      ∧ ∀ source slot : Nat, h'.clean = false ∨ 16 ≤ source ∨ (4 ≤ slot ∧ slot ≠ 255) →
        exec (.maskClear h' source slot) s = .next (s.afterCommand (answers h' 0x39 .badArgument 0))

/-! ### Tours -/

/-- R101, R102, R103: TOUR_SET replaces a tour and sends every runtime bound to it to step 0 with that step's
dwell, its state kept, with their number as detail; TOUR_RETIRE empties a tour that no tile of any bank
binds, and is answered TOUR_IN_USE with the number of bindings otherwise; both refuse operands outside
their ranges, and reserved fields that are not zero, without effect. -/
def Obligations.TourSetAndRetire : Prop :=
  ∀ (h : Header) (y : TourId) (s : State), s.Ready → h.clean = true →
    (∀ (tour : Tour) (rest : List (Nat × Nat)), 1 ≤ tour.steps.length → tour.steps.length ≤ 12 →
      (∀ st ∈ tour.steps, 1 ≤ st.dwell ∧ st.dwell ≤ 255) →
      ∃ t n, exec (.tourSet h { tour := y.val, count := tour.steps.length
                                skipLost := codeYesNo tour.skipLost
                                steps := tour.steps.map codeStep ++ rest }) s = .next t
        ∧ t = (({ s with tours := s.tours.set y (some tour), runtimes := t.runtimes }
              : State).afterCommand (answers h 0x40 .ok n))
        ∧ (s.tour y = none → n = 0 ∧ t.runtimes = s.runtimes)
        ∧ ((s.tour y).isSome = true →
          n = ([Head.a, Head.b].map (fun hd => (List.finRange 32).countP (fun slot =>
                ((s.liveTile hd slot).bind (fun tile => tile.tour) = some y : Bool)
                && (s.runtime hd slot).isSome))).sum
          ∧ ∀ hd slot, t.runtime hd slot = (s.runtime hd slot).map (fun r =>
              if (s.liveTile hd slot).bind (fun tile => tile.tour) = some y
              then { r with step := 0, remaining := tour.dwellOf 0 } else r)))
    ∧ (1 ≤ s.bindings y → exec (.tourRetire h y.val) s
        = .next (s.afterCommand (answers h 0x41 .tourInUse (s.bindings y))))
    ∧ (s.bindings y = 0 → exec (.tourRetire h y.val) s = .next
        (({ s with tours := s.tours.set y none } : State).afterCommand
          (answers h 0x41 .ok (if (s.tour y).isSome then 1 else 0))))
    ∧ (s.bindings y = 0 ↔ ∀ hd (b : Bank), b = (s.dir hd).working ∨ b = (s.dir hd).live
        ∨ (∃ c, (s.dir hd).commit = some c ∧ b = c.bank) →
        ∀ slot tile, b.slots.get slot = some tile → tile.tour ≠ some y)
    ∧ ∀ h' : Header,
      (∀ a : TourArgs, h'.clean = false ∨ operandsInRange (.tourSet h' a) = false →
        exec (.tourSet h' a) s = .next (s.afterCommand (answers h' 0x40 .badArgument 0)))
      ∧ ∀ tour : Nat, h'.clean = false ∨ 8 ≤ tour →
        exec (.tourRetire h' tour) s = .next (s.afterCommand (answers h' 0x41 .badArgument 0))

/-- R111, R112: TOUR_CONTROL on a touring LIVE slot: HOLD, RESUME, NEXT and RESTART, with the step index
after the action as detail; SLOT_FREE and NOT_TOURING otherwise. -/
def Obligations.TourControlActs : Prop :=
  ∀ (h : Header) (hd : Head) (k : SlotId) (act : TourAction) (s : State), s.Ready →
    h.clean = true → s.ToursOk →
    let run := exec (.tourControl h (codeHead hd) k.val (codeAction act)) s
    (s.liveTile hd k = none → run = .next (s.afterCommand (answers h 0x42 .slotFree 0)))
    ∧ (∀ tile, s.liveTile hd k = some tile → tile.tour = none →
        run = .next (s.afterCommand (answers h 0x42 .notTouring 0)))
    ∧ ∀ tile y, s.liveTile hd k = some tile → tile.tour = some y →
      ∃ tour r, s.tour y = some tour ∧ s.runtime hd k = some r
        ∧ (act = .hold → run = .next ((s.setRuntime hd k (some { r with state := .held })).afterCommand
            (answers h 0x42 .ok r.step)))
        ∧ (act = .resume → run = .next
            ((s.setRuntime hd k (some { r with state := .running })).afterCommand
              (answers h 0x42 .ok r.step)))
        ∧ (act = .restart → run = .next
            ((s.setRuntime hd k (some { r with step := 0, remaining := tour.dwellOf 0 })).afterCommand
              (answers h 0x42 .ok 0)))
        ∧ (act = .next → ∃ step lost, NextStep s tour r.step step lost
            ∧ run = .next ((s.movedTo hd k tour r step lost).afterCommand (answers h 0x42 .ok step)))

/-- R106 to R109: DWELL_EXPIRY moves a counting runtime with no time left to its next step, or to the step
a skip_lost search finds, loads that step's dwell, and raises TOUR_ALL_LOST where the search finds none. A
runtime that stands still or has time left takes none. -/
def Obligations.DwellExpiryMovesTheRuntime : Prop :=
  ∀ (hd : Head) (k : SlotId) (s : State), s.ToursOk →
    (∀ tour r, s.touring hd k = some (tour, r) → r.state = .running →
      (s.head hd).state ≠ .stopped → s.list hd k = [] → r.remaining = 0 →
      ∃ step lost, NextStep s tour r.step step lost
        ∧ exec (.dwellExpiry hd k) s = .next (s.movedTo hd k tour r step lost))
    ∧ (∀ tour r, s.touring hd k = some (tour, r) →
      r.state = .held ∨ (s.head hd).state = .stopped ∨ s.list hd k ≠ [] ∨ r.remaining ≠ 0 →
      exec (.dwellExpiry hd k) s = .next s)
    ∧ (s.touring hd k = none → exec (.dwellExpiry hd k) s = .next s)

/-! ### Alarm lines -/

/-- R117, R118, R120, R135, with R119: LINE_SET ends a standing alarm with a release (detail 1), takes the
new configuration and starts the new debounce time where it is enabled; a debounce of 0 makes the comparison
within the command, and where the level of the pin's last sample is asserted under the new polarity the line
asserts. That the comparison takes the last sample is the model's reading (log 23), and that of two entries
equal in priority and arrival number the older stands first is its choice (log 27). -/
def Obligations.LineSetReconfigures : Prop :=
  ∀ (h : Header) (l : LineId) (en : Bool) (pol : Polarity) (debounce : Nat) (s : State),
    s.Ready → h.clean = true → debounce ≤ 255 →
    ∃ u v, exec (.lineSet h l.val (codeYesNo en) (codePolarity pol) debounce) s
        = .next (v.afterCommand (answers h 0x50 .ok (if (s.line l).state = .active then 1 else 0)))
      ∧ ((s.line l).state = .idle → u = s)
      ∧ ((s.line l).state = .active → Released l s u)
      ∧ (let r : LineRecord := { s.line l with
            enabled := en, polarity := pol, debounce, state := .idle
            timer := if en = true ∧ debounce ≠ 0 then some (debounce * 10) else none }
         let asserts := en = true ∧ debounce = 0 ∧ activeLevel pol (s.line l).rawHigh = true
         (¬ asserts → v = u.setLine l r)
         ∧ (asserts → Asserted l (u.setLine l { r with state := .active }) v))

/-- R116 to R119, R130 to R133, R135: a change of the pin at which the line's one sample of the millisecond
falls is taken there; any other moves the pin alone, and two such changes that end at the level of before
leave the part as it was (the moment of the sample is the sender's, log 23). A sample that differs from the
one before restarts the debounce time of an enabled line (with debounce 0 it acts as the expiry does); at the
expiry the line compares the active level of its last sample (the model's reading, log 23) with its state. At
an assertion the rules of the line fire, C0 to C31 in turn (equal priority and arrival number by log 27, the
model's choice); a release changes the entries of its rules, with their notices. -/
def Obligations.LevelChangeAndDebounceExpiry : Prop :=
  ∀ (l : LineId) (high : Bool) (s : State),
    (∀ atSample : Bool, atSample = false ∨ (s.line l).sampled = true →
      exec (.levelChange l { high, atSample }) s = .next
        (s.setLine l { s.line l with pinHigh := high }))
    ∧ (∀ u, exec (.levelChange l { high, atSample := false }) s = .next u →
      exec (.levelChange l { high := (s.line l).pinHigh, atSample := false }) u = .next s)
    ∧ ((s.line l).sampled = false → ∃ t, exec (.levelChange l { high, atSample := true }) s = .next t
      ∧ Samples l (s.setLine l { s.line l with pinHigh := high, sampled := true }) t)
    ∧ ((s.line l).enabled = false ∨ (s.line l).timer ≠ some 0 →
      exec (.debounceExpiry l) s = .next s)
    ∧ ((s.line l).enabled = true → (s.line l).timer = some 0 →
      ∃ t, exec (.debounceExpiry l) s = .next t
        ∧ (let active := activeLevel (s.line l).polarity (s.line l).rawHigh
           let u := s.setLine l
            { s.line l with timer := none, state := if active then .active else .idle }
           ((s.line l).state = .idle → active = false → t = u)
           ∧ ((s.line l).state = .active → active = true → t = u)
           ∧ ((s.line l).state = .active → active = false → Released l u t)
           ∧ ((s.line l).state = .idle → active = true → Asserted l u t)))

/-! ### Call-up rules and lists -/

/-- R125, R126: RULE_SET and RULE_RETIRE remove the rule's standing entry, with CALLUP_CHANGE where it was
the top, then take the new record or empty the rule; the detail is the number of entries removed. -/
def Obligations.RuleSetAndRetire : Prop :=
  ∀ (h : Header) (n : RuleId) (r : Rule) (s : State), s.Ready → h.clean = true →
    r.priority ≤ 7 → r.hold ≤ 255 →
    (s.rule n = none →
      exec (.ruleSet h (codeRule n r)) s = .next
        (({ s with rules := s.rules.set n (some r) } : State).afterCommand (answers h 0x51 .ok 0))
      ∧ exec (.ruleRetire h n.val) s = .next
        (({ s with rules := s.rules.set n none } : State).afterCommand (answers h 0x52 .ok 0)))
    ∧ ∀ old, s.rule n = some old →
      let l := s.list old.head old.slot
      let gone := l.countP (fun e => e.rule = n)
      let u := s.relisted old.head old.slot (l.filter (fun e => e.rule ≠ n))
      exec (.ruleSet h (codeRule n r)) s = .next
        (({ u with rules := s.rules.set n (some r) } : State).afterCommand (answers h 0x51 .ok gone))
      ∧ exec (.ruleRetire h n.val) s = .next
        (({ u with rules := s.rules.set n none } : State).afterCommand (answers h 0x52 .ok gone))

/-- R130 to R134: CALLUP_TRIGGER: RULE_EMPTY, then BAD_ARGUMENT where no state could hold the entry, then
NO_TILE, then LIST_FULL, each without effect; otherwise the rule fires, its entry ASSERTED, LATCHED or
HOLDING by its line and latch, and the detail is the entry's position. Where priority and arrival number
both equal those of a standing entry, that the older stands first is the model's choice (log 27). Before all
this, a rule number or a reserved field that is wrong is answered BAD_ARGUMENT. -/
def Obligations.CallupTriggerFires : Prop :=
  ∀ (h : Header) (n : RuleId) (s : State), s.Ready → h.clean = true →
    (s.rule n = none → exec (.callupTrigger h n.val) s
      = .next (s.afterCommand (answers h 0x53 .ruleEmpty 0)))
    ∧ (∀ (h' : Header) (rule : Nat), h'.clean = false ∨ 32 ≤ rule → exec (.callupTrigger h' rule) s
      = .next (s.afterCommand (answers h' 0x53 .badArgument 0)))
    ∧ ∀ r, s.rule n = some r →
      let active := ∃ l, r.line = some l ∧ (s.line l).state = .active
      (r.hold = 0 → r.latch = false → ¬ active → exec (.callupTrigger h n.val) s
        = .next (s.afterCommand (answers h 0x53 .badArgument 0)))
      ∧ (¬ (r.hold = 0 ∧ r.latch = false ∧ ¬ active) → s.liveTile r.head r.slot = none →
        exec (.callupTrigger h n.val) s = .next (s.afterCommand (answers h 0x53 .noTile 0)))
      ∧ ∀ st : EntryState,
        (active → st = .asserted) → (¬ active → r.latch = true → st = .latched) →
        (¬ active → r.latch = false → st = .holding (r.hold * 1000)) →
        ¬ (r.hold = 0 ∧ r.latch = false ∧ ¬ active) → (s.liveTile r.head r.slot).isSome = true →
        (FullAgainst st n r s → exec (.callupTrigger h n.val) s
          = .next (s.afterCommand (answers h 0x53 .listFull 0)))
        ∧ ∀ u p, Fires st n r s u p → exec (.callupTrigger h n.val) s
          = .next (u.afterCommand (answers h 0x53 .ok p))

/-- R137: CALLUP_CLEAR removes the entry of one rule, or every entry, from one list, with CALLUP_CHANGE
where the top goes and the number removed as detail, and refuses operands outside their ranges, and
reserved fields that are not zero, without effect. -/
def Obligations.CallupClearRemovesEntries : Prop :=
  ∀ (h : Header) (hd : Head) (k : SlotId) (n : RuleId) (s : State), s.Ready → h.clean = true →
    exec (.callupClear h (codeHead hd) k.val n.val) s = .next
      ((s.relisted hd k ((s.list hd k).filter (fun e => e.rule ≠ n))).afterCommand
        (answers h 0x54 .ok ((s.list hd k).countP (fun e => e.rule = n))))
    ∧ exec (.callupClear h (codeHead hd) k.val 255) s = .next
      ((s.relisted hd k []).afterCommand (answers h 0x54 .ok (s.list hd k).length))
    ∧ ∀ (h' : Header) (head slot rule : Nat),
      h'.clean = false ∨ 2 ≤ head ∨ 32 ≤ slot ∨ (32 ≤ rule ∧ rule ≠ 255) →
      exec (.callupClear h' head slot rule) s
        = .next (s.afterCommand (answers h' 0x54 .badArgument 0))

/-- R136, R138: HOLD_EXPIRY removes the HOLDING entry of a rule whose hold has run out, with CALLUP_CHANGE
where it was the top; where no such entry stands nothing happens. -/
def Obligations.HoldExpiryRemovesTheEntry : Prop :=
  ∀ (n : RuleId) (s : State),
    (s.rule n = none → exec (.holdExpiry n) s = .next s)
    ∧ ∀ r, s.rule n = some r →
      ((∀ e ∈ s.list r.head r.slot, e.rule = n → e.state ≠ .holding 0) →
        exec (.holdExpiry n) s = .next s)
      ∧ ∀ front e back, s.list r.head r.slot = front ++ e :: back → e.rule = n →
        e.state = .holding 0 → (∀ f ∈ front ++ back, f.rule ≠ n) →
        exec (.holdExpiry n) s = .next (s.relisted r.head r.slot (front ++ back))

/-! ### Queries and the part's writes -/

/-- Table 12-7, R151, R159, R161 to R165: each query snapshots its available records, in its order, each the
bytes of table 12-7, and owes the first max count of them to the buffer. That a query with none to write
completes at once, with 0 written and the number available (for QUERY_NOTICES, the notices left), is the
model's choice (log 15), and so is the 0 in the skip_lost byte of an EMPTY tour (log 31). -/
def Obligations.QueriesBegin : Prop :=
  ∀ (h : Header) (q : QueryArgs) (hd : Head) (slot : SlotId) (y : TourId) (s : State), s.Ready →
    h.clean = true → bufferAligned q = true →
    let begins := fun (i : Instr) (code size : Nat) (records : List ResultRecord) =>
      (∀ r ∈ records, r.bytes.length = size)
      ∧ (records.take q.maxCount = [] →
          exec i s = .next (s.afterCommand (queryAnswers h code 0 records.length)))
      ∧ (records.take q.maxCount ≠ [] → exec i s = .next { s with port := { s.port with
          cmdConsumer := s.port.consumerAfter
          held := none
          query := some { header := h, code, address := BitVec.ofNat 32 q.buffer
                          left := records.take q.maxCount, written := 0
                          available := records.length }
          proc := .executing
          path := if s.port.queue ≠ [] then some .completionWrite else some .resultWrite
          mark := true } })
    let b := fun n : Nat => BitVec.ofNat 8 n
    let plain := fun bytes : List Byte => ({ bytes, notice := none } : ResultRecord)
    begins (.querySources h q) 0x60 24 (sourceRecords s) ∧ (sourceRecords s).length = 16
    ∧ (∀ i : SourceId, (sourceRecords s)[i.val]? = some (plain
        [b i.val, b (codeYesNo (s.source i).enabled), b (s.source i).port.val,
          b (codeExpect (s.source i).expect), b (s.source i).hStart, b (s.source i).vStart,
          b (codeYesNo (s.source i).fieldSwap), b (codeSourceState (s.source i).state),
          b (codeStandard (s.source i).standard), b (s.source i).goodRun, b (s.source i).badRun,
          b (codeOrNone (s.page i).newest),
          b (codeYesNo ((s.masks.get i).get 0).isSome + 2 * codeYesNo ((s.masks.get i).get 1).isSome
            + 4 * codeYesNo ((s.masks.get i).get 2).isSome
            + 8 * codeYesNo ((s.masks.get i).get 3).isSome), 0, 0, 0,
          b (s.page i).count.toNat, b ((s.page i).count.toNat / 256),
          b ((s.page i).count.toNat / 65536), b ((s.page i).count.toNat / 16777216), 0, 0, 0, 0]))
    ∧ (∀ (name : BankName) (bank : Bank), s.bank hd name = some bank →
        begins (.queryLayout h q (codeHead hd) (codeBank name)) 0x61 24 (layoutRecords bank)
        ∧ (bank.RankOk → (layoutRecords bank).length = bank.slots.count Option.isSome
          ∧ ∀ (rank : Nat) (k : SlotId) (t : Tile), bank.order[rank]? = some k →
            bank.slots.get k = some t → (layoutRecords bank)[rank]? = some (plain
              [b k.val, b rank, 0, 0, b t.geometry.x, b (t.geometry.x / 256),
                b t.geometry.y, b (t.geometry.y / 256), b t.geometry.w, b (t.geometry.w / 256),
                b t.geometry.h, b (t.geometry.h / 256), b t.view.scale, 0,
                b t.view.cx, b (t.view.cx / 256), b t.view.cy, b (t.view.cy / 256),
                b (codeOrNone t.source), b (codeOrNone t.tour), b t.style.borderWidth,
                b t.style.borderColour.val, b (codeLossPolicy t.style.lossPolicy),
                b t.style.lossColour.val])))
    ∧ ((s.dir hd).commit = none → exec (.queryLayout h q (codeHead hd) 1) s
        = .next (s.afterCommand (answers h 0x61 .nothingPending 0)))
    ∧ begins (.queryRuntime h q (codeHead hd)) 0x62 16 (runtimeRecords s hd)
    ∧ (runtimeRecords s hd).length = (s.dir hd).live.slots.count Option.isSome
    ∧ (∃ defined : List (SlotId × Tile), (defined.map Prod.fst).Pairwise (· < ·)
        ∧ (∀ k t, (k, t) ∈ defined ↔ s.liveTile hd k = some t)
        ∧ runtimeRecords s hd = defined.map (fun d => plain
          ([b d.1.val, b (codeOrNone ((s.head hd).view.shown.get d.1))]
            ++ (match s.runtime hd d.1 with
              | some r => [1, b (codeOrNone d.2.tour), b r.step, b (codeRunState r.state),
                  b ((r.remaining + 999) / 1000)]
              | none => [0, 0, 0, 0, 0])
            ++ [b (s.list hd d.1).length,
                b (codeOrNone ((s.list hd d.1).head?.map (fun e => e.rule))), 0, 0, 0, 0, 0, 0, 0])))
    ∧ begins (.queryTour h q y.val) 0x63 32 (tourRecords s y) ∧ (tourRecords s y).length = 1
    ∧ (tourRecords s y)[0]? = some (plain (match s.tour y with
        | some t => [b y.val, 1, b t.steps.length, b (codeYesNo t.skipLost), 0, 0, 0, 0]
            ++ (List.range 12).flatMap (fun k => match t.steps[k]? with
              | some st => [b st.source.val, b st.dwell]
              | none => [0, 0])
        | none => b y.val :: List.replicate 31 0))
    ∧ begins (.queryRules h q) 0x64 16 (ruleRecords s) ∧ (ruleRecords s).length = 32
    ∧ (∀ n : RuleId, (ruleRecords s)[n.val]? = some (plain (match s.rule n with
        | some r => [b n.val, 1, b (codeOrNone r.line), b (codeHead r.head), b r.slot.val,
            b r.source.val, b r.priority, b r.hold, b (codeYesNo r.latch), 0, 0, 0, 0, 0, 0, 0]
        | none => b n.val :: List.replicate 15 0)))
    ∧ begins (.queryLines h q) 0x65 8 (lineRecords s) ∧ (lineRecords s).length = 16
    ∧ (∀ l : LineId, (lineRecords s)[l.val]? = some (plain
        [b l.val, b (codeYesNo (s.line l).enabled), b (codePolarity (s.line l).polarity),
          b (s.line l).debounce, b (codeLineState (s.line l).state),
          b (codeYesNo (s.line l).pinHigh), 0, 0]))
    ∧ begins (.queryCallups h q (codeHead hd) slot.val) 0x66 16 (callupRecords s hd slot)
    ∧ (callupRecords s hd slot).length = (s.list hd slot).length
    ∧ (∀ (position : Nat) (e : Entry), (s.list hd slot)[position]? = some e →
        (callupRecords s hd slot)[position]? = some (plain
          [b e.rule.val, b e.priority, b (codeEntryState e.state),
            b (match e.state with
              | .holding left => (left + 999) / 1000
              | .asserted | .latched => 0),
            b e.arrival.toNat, b (e.arrival.toNat / 256), b (e.arrival.toNat / 65536),
            b (e.arrival.toNat / 16777216), 0, 0, 0, 0, 0, 0, 0, 0]))
    ∧ begins (.queryNotices h q) 0x67 8 (noticeRecords s)
    ∧ (∃ standing : List (NoticeKey × NoticeValue),
        (standing.map (fun n => keyPlace n.1)).Pairwise (· < ·)
        ∧ (∀ k v, (k, v) ∈ standing ↔ s.notices.get k = some v)
        ∧ noticeRecords s = standing.map (fun n => ({
            notice := some n
            bytes := (match n.1 with
              | .sourceState i => [0, 0, b i.val]
              | .callupChange hd' k => [1, b (codeHead hd'), b k.val]
              | .callupRefused r => [2, 0, b r.val]
              | .tourAllLost hd' k => [3, b (codeHead hd'), b k.val])
              ++ [b (codeNoticeValue n.2), 0, 0, 0, 0] } : ResultRecord)))

/-- R151, R161: the write of a query's record ends: the record stands at its bus address, the run goes on
at the address after it, the notice it reports is removed if its value is still the one reported; after the
last record the query's completion joins the queue (unless quiet) with the records written and the number
available, or the notices left. That a notice raised again with the value reported is removed too is the
model's choice (log 29), and that the next record's address wraps at 2^32 is its reading (log 12). Without a
result write on the path nothing happens. -/
def Obligations.ResultWriteReportsARecord : Prop :=
  ∀ (q : QueryRun) (r : ResultRecord) (rest : List ResultRecord) (s : State),
    (s.port.path ≠ some .resultWrite → exec .resultWrite s = .next s)
    ∧ (s.port.path = some .resultWrite → s.port.query = some q → q.left = r :: rest →
      ∃ t, exec .resultWrite s = .next t
        ∧ t = { s with port := t.port, notices := t.notices }
        ∧ (∀ k v, r.notice = some (k, v) → s.notices.get k = some v → t.notices.get k = none)
        ∧ (∀ k, (∀ v, r.notice = some (k, v) → s.notices.get k ≠ some v) →
            t.notices.get k = s.notices.get k)
        ∧ t.port.lastWrite = some ⟨q.address, r.bytes⟩
        ∧ (rest ≠ [] → t.port = Port.settle { s.port with
            lastWrite := some ⟨q.address, r.bytes⟩
            query := some { q with address := q.address + BitVec.ofNat 32 r.bytes.length
                                   left := rest, written := q.written + 1 } })
        ∧ (rest = [] → t.port = Port.settle { s.port with
            lastWrite := some ⟨q.address, r.bytes⟩
            query := none
            path := none
            queue := s.port.queue ++ queryAnswers q.header q.code (q.written + 1)
              (if q.code = 0x67 then t.notices.size else q.available)
            mark := true
            proc := if s.port.run then .idle else .stopped }))

/-- R143, R146, R153, R168 and table 12-5: the write of the completion at the head of the queue ends: the
16-byte record with its phase bit stands at its entry, the completion has left the queue, CPL_WRITE has
advanced by one modulo 2N, and EACH mode raises CPL. The entry's address is taken from CPL_BASE as it stands
at the end of the write (log 28, the model's choice). Without a completion write on the path nothing
happens. -/
def Obligations.CompletionWriteAdvances : Prop :=
  ∀ (c : Completion) (rest : List Completion) (s : State),
    (s.port.path ≠ some .completionWrite → exec .completionWrite s = .next s)
    ∧ (s.port.path = some .completionWrite → s.port.queue = c :: rest →
      exec .completionWrite s = .next { s with port := Port.settle { s.port with
        queue := rest
        cplWrite := (s.port.cplWrite + 1) % (2 * s.port.cplSize)
        path := none
        lastWrite := some
          ⟨s.port.cplBase + BitVec.ofNat 32 (s.port.cplWrite % s.port.cplSize * 16),
            [BitVec.ofNat 8 c.tag, BitVec.ofNat 8 (c.tag / 256), BitVec.ofNat 8 c.code,
             BitVec.ofNat 8 (codeResult c.result),
             BitVec.ofNat 8 c.detail, BitVec.ofNat 8 (c.detail / 256),
             BitVec.ofNat 8 (c.detail / 65536), BitVec.ofNat 8 (c.detail / 16777216),
             BitVec.ofNat 8 c.detail2, BitVec.ofNat 8 (c.detail2 / 256),
             BitVec.ofNat 8 (c.detail2 / 65536), BitVec.ofNat 8 (c.detail2 / 16777216),
             0, 0, 0, if s.port.cplWrite < s.port.cplSize then 1 else 0]⟩
        cause := { s.port.cause with cpl := s.port.cause.cpl || s.port.mode = .each } } })

/-- R151, R154, R155: a fault of the transfer on the path fills the fault record, sets cause FAULT and makes
the processor FAULTED; a query under way ends with its DATA_FAULT completion, quiet or not; a fetch leaves
the consumer, a completion write leaves its completion at the head of the queue and CPL_WRITE as it stood,
and its fault address is taken from CPL_BASE as it stands (log 28, the model's choice).
With nothing on the path, or DATA_PARITY on a write, no fault is taken. -/
def Obligations.BusFaultByPhase : Prop :=
  ∀ (kind : BusFaultKind) (phase : Transfer) (s : State), s.RingsOk →
    (s.port.path = none → exec (.busFault kind) s = .next s)
    ∧ (s.port.path = some phase → kind = .dataParity → phase ≠ .fetch →
      exec (.busFault kind) s = .next s)
    ∧ (s.port.path = some phase → kind ≠ .dataParity ∨ phase = .fetch →
      exec (.busFault kind) s = .next { s with port := { s.port with
        fault := some
          { kind, phase
            address := match phase with
              | .fetch => s.port.cmdBase
                  + BitVec.ofNat 32 (s.port.cmdConsumer % s.port.cmdSize * 32)
              | .resultWrite => (s.port.query.map (fun q => q.address)).getD 0
              | .completionWrite => s.port.cplBase
                  + BitVec.ofNat 32 (s.port.cplWrite % s.port.cplSize * 16) }
        cause := { s.port.cause with fault := true }
        proc := .faulted
        path := none
        query := none
        queue := s.port.queue ++ (match s.port.query with
          | some q => [{ tag := q.header.tag, code := q.code, result := .dataFault
                         detail := q.written
                         detail2 := if q.code = 0x67 then s.notices.size else q.available }]
          | none => [])
        mark := s.port.mark || s.port.query.isSome } })

/-! ### Host writes of the register window -/

/-- R147, R156: RUN_SET from STOPPED with a valid configuration (refused with INDEX_ERROR otherwise) and in
any other state; RUN_CLEAR; RESTART from FAULTED to WAITING, IDLE or STOPPED, and without effect in any other
state. -/
def Obligations.RunAndRestart : Prop :=
  ∀ s : State,
    (let p := s.port
     let valid := p.cmdSize ≠ 0 ∧ p.cplSize ≠ 0 ∧ p.cmdBase.toNat % (32 * p.cmdSize) = 0
        ∧ p.cplBase.toNat % (16 * p.cplSize) = 0
     (p.proc = .stopped → valid →
        exec .runSet s = .next (s.setPort (Port.settle
          { p with run := true, proc := .idle })))
     ∧ (p.proc = .stopped → ¬ valid → exec .runSet s = .next
        (s.setPort (Port.settle
          { p with cause := { p.cause with indexError := true } })))
     ∧ (p.proc ≠ .stopped → exec .runSet s = .next
        (s.setPort (Port.settle
          { p with run := true })))
     ∧ (p.proc = .idle → exec .runClear s = .next
        (s.setPort (Port.settle
          { p with run := false, proc := .stopped })))
     ∧ (p.proc ≠ .idle → exec .runClear s = .next
        (s.setPort (Port.settle
          { p with run := false })))
     ∧ (p.proc = .faulted → exec .restart s = .next { s with port := Port.settle { p with
          fault := none
          proc := if p.held.isSome then .waiting else if p.run then .idle else .stopped } })
     ∧ (p.proc ≠ .faulted → exec .restart s = .next (s.setPort p.settle)))

/-- R141: CMD_SIZE and CPL_SIZE are taken while STOPPED, for a listed value (and, for CPL_SIZE, an empty
queue and no reservation), and zero their ring's indices; otherwise they are discarded, with INDEX_ERROR
while STOPPED. -/
def Obligations.RingSizesTakenWhileStopped : Prop :=
  ∀ (v : Word) (s : State),
    (let p := s.port
     let listed := v.toNat ∈ [16, 32, 64, 128, 256, 512, 1024]
     (p.proc ≠ .stopped →
        exec (.cmdSize v) s = .next (s.setPort p.settle)
        ∧ exec (.cplSize v) s = .next (s.setPort p.settle))
     ∧ (p.proc = .stopped → listed → exec (.cmdSize v) s = .next (s.setPort (Port.settle
          { p with cmdSize := v.toNat, cmdProducer := 0, cmdConsumer := 0 })))
     ∧ (p.proc = .stopped → ¬ listed → exec (.cmdSize v) s = .next (s.setPort (Port.settle
          { p with cause := { p.cause with indexError := true } })))
     ∧ (p.proc = .stopped → listed → p.queue = [] → s.reservations = 0 →
        exec (.cplSize v) s = .next (s.setPort (Port.settle
          { p with cplSize := v.toNat, cplWrite := 0, cplRead := 0 })))
     ∧ (p.proc = .stopped → ¬ (listed ∧ p.queue = [] ∧ s.reservations = 0) →
        exec (.cplSize v) s = .next (s.setPort (Port.settle
          { p with cause := { p.cause with indexError := true } }))))

/-- R142, R143: CMD_PRODUCER moves the producer forward within the ring's room, CPL_READ gives back occupied
entries; any other value is discarded with INDEX_ERROR, and every value while the ring's size is 0. -/
def Obligations.RingIndexWrites : Prop :=
  ∀ (v : Word) (s : State), s.RingsOk →
    (let p := s.port
     let n := p.cmdSize
     let m := p.cplSize
     let outstanding := (p.cmdProducer + 2 * n - p.cmdConsumer) % (2 * n)
     let advance := (v.toNat + 2 * n - p.cmdProducer) % (2 * n)
     let occupancy := (p.cplWrite + 2 * m - p.cplRead) % (2 * m)
     let left := (p.cplWrite + 2 * m - v.toNat) % (2 * m)
     let refused := (s.setPort (Port.settle
          { p with cause := { p.cause with indexError := true } }))
     (v.toNat < 2 * n → outstanding + advance ≤ n → exec (.cmdProducer v) s = .next
        (s.setPort (Port.settle
          { p with cmdProducer := v.toNat })))
     ∧ (2 * n ≤ v.toNat ∨ n < outstanding + advance → exec (.cmdProducer v) s = .next refused)
     ∧ (v.toNat < 2 * m → left ≤ occupancy → exec (.cplRead v) s = .next
        (s.setPort (Port.settle
          { p with cplRead := v.toNat })))
     ∧ (2 * m ≤ v.toNat ∨ occupancy < left → exec (.cplRead v) s = .next refused))

/-- R147, R152, R153, R156, R169 and table 12-8: CAUSE clears the causes whose bits are 1; the completion
interrupt mode takes the value written; REGISTER_WRITE of a whole word acts as the write of the register at
its offset, and is discarded without any effect at an offset with no writable register or with byte enables
that do not select the whole word. A write of CONTROL sets or clears RUN, takes the mode and performs the
RESTART, in that order (the order is the model's choice, log 18). A read answers the word of table 12-8, 0
at every other offset (the revision in IDENT is free, log 9), and the interrupt pin is active while a cause
is set whose enable is set. -/
def Obligations.RegisterWindowWritesAndReads : Prop :=
  ∀ (v : Word) (mode : CplMode) (s : State),
    exec (.cause v) s = .next { s with port := Port.settle { s.port with cause :=
      { cpl := s.port.cause.cpl && !v.getLsbD 0, notice := s.port.cause.notice && !v.getLsbD 1
        fault := s.port.cause.fault && !v.getLsbD 2
        indexError := s.port.cause.indexError && !v.getLsbD 3
        frameA := s.port.cause.frameA && !v.getLsbD 4
        frameB := s.port.cause.frameB && !v.getLsbD 5 } } }
    ∧ exec (.completionInterruptMode mode) s
        = .next { s with port := Port.settle { s.port with mode } }
    ∧ exec (.registerWrite 0x014 15 v) s = exec (.cmdSize v) s
    ∧ exec (.registerWrite 0x018 15 v) s = exec (.cmdProducer v) s
    ∧ exec (.registerWrite 0x024 15 v) s = exec (.cplSize v) s
    ∧ exec (.registerWrite 0x02C 15 v) s = exec (.cplRead v) s
    ∧ exec (.registerWrite 0x030 15 v) s = exec (.cause v) s
    ∧ exec (.registerWrite 0x010 15 v) s = .next (if s.port.proc = .stopped then
        { s with port := { s.port with cmdBase := v } } else s)
    ∧ exec (.registerWrite 0x020 15 v) s = .next (if s.port.proc = .stopped then
        { s with port := { s.port with cplBase := v } } else s)
    ∧ exec (.registerWrite 0x034 15 v) s = .next { s with port := { s.port with enable :=
      { cpl := v.getLsbD 0, notice := v.getLsbD 1, fault := v.getLsbD 2, indexError := v.getLsbD 3
        frameA := v.getLsbD 4, frameB := v.getLsbD 5 } } }
    ∧ (v.getLsbD 8 = true → exec (.registerWrite 0x004 15 v) s = exec .portReset s)
    ∧ (let p := s.port
       let mode := if v.getLsbD 1 then CplMode.drained else CplMode.each
       let valid := p.cmdSize ≠ 0 ∧ p.cplSize ≠ 0 ∧ p.cmdBase.toNat % (32 * p.cmdSize) = 0
          ∧ p.cplBase.toNat % (16 * p.cplSize) = 0
       let control := exec (.registerWrite 0x004 15 v) s
       v.getLsbD 8 = false →
       (v.getLsbD 9 = false ∨ p.proc ≠ .faulted →
          (v.getLsbD 0 = true → p.proc ≠ .stopped →
            control = .next (s.setPort (Port.settle { p with run := true, mode })))
          ∧ (v.getLsbD 0 = true → p.proc = .stopped → valid →
            control = .next (s.setPort (Port.settle { p with run := true, proc := .idle, mode })))
          ∧ (v.getLsbD 0 = true → p.proc = .stopped → ¬ valid →
            control = .next (s.setPort (Port.settle
              { p with mode, cause := { p.cause with indexError := true } })))
          ∧ (v.getLsbD 0 = false → control = .next (s.setPort (Port.settle
              { p with run := false, mode, proc := if p.proc = .idle then .stopped else p.proc }))))
       ∧ (v.getLsbD 9 = true → p.proc = .faulted → control = .next (s.setPort (Port.settle
          { p with
            run := v.getLsbD 0, mode, fault := none
            proc := if p.held.isSome then .waiting
              else if v.getLsbD 0 then .idle else .stopped }))))
    ∧ (∀ (offset : Nat) (enables : BitVec 4),
      enables ≠ 15 ∨ offset ∉ [0x004, 0x010, 0x014, 0x018, 0x020, 0x024, 0x02C, 0x030, 0x034] →
      exec (.registerWrite offset enables v) s = .next s)
    ∧ (s.readWindow 0x000).toNat / 65536 = 0x1620 ∧ (s.readWindow 0x000).toNat % 65536 < 256
    ∧ (s.readWindow 0x004).toNat = codeYesNo s.port.run + 2 * codeYesNo (s.port.mode = .drained)
    ∧ s.readWindow 0x010 = s.port.cmdBase ∧ s.readWindow 0x014 = BitVec.ofNat 32 s.port.cmdSize
    ∧ s.readWindow 0x018 = BitVec.ofNat 32 s.port.cmdProducer
    ∧ s.readWindow 0x01C = BitVec.ofNat 32 s.port.cmdConsumer
    ∧ s.readWindow 0x020 = s.port.cplBase ∧ s.readWindow 0x024 = BitVec.ofNat 32 s.port.cplSize
    ∧ s.readWindow 0x028 = BitVec.ofNat 32 s.port.cplWrite
    ∧ s.readWindow 0x02C = BitVec.ofNat 32 s.port.cplRead
    ∧ (let bits := fun (w : Word) (c : Causes) =>
        w.getLsbD 0 = c.cpl ∧ w.getLsbD 1 = c.notice ∧ w.getLsbD 2 = c.fault
        ∧ w.getLsbD 3 = c.indexError ∧ w.getLsbD 4 = c.frameA ∧ w.getLsbD 5 = c.frameB
        ∧ w.toNat < 64
       bits (s.readWindow 0x030) s.port.cause ∧ bits (s.readWindow 0x034) s.port.enable)
    ∧ (s.port.fault = none →
        s.readWindow 0x040 = 0 ∧ s.readWindow 0x044 = 0 ∧ s.readWindow 0x048 = 0)
    ∧ (∀ f, s.port.fault = some f → (s.readWindow 0x040).toNat = codeFaultKind f.kind
        ∧ (s.readWindow 0x044).toNat = codePhase f.phase ∧ s.readWindow 0x048 = f.address)
    ∧ (s.readWindow 0x050).toNat = codeProc s.port.proc
    ∧ (∀ hd, let offset := 0x060 + 8 * codeHead hd
        (s.readWindow offset).toNat = codeHeadState (s.head hd).state
          + 4 * codeStandard (some (s.head hd).standard) + 16 * codeYesNo (s.dir hd).commit.isSome
        ∧ s.readWindow (offset + 4) = (s.head hd).frameNumber)
    ∧ (∀ offset : Nat, offset ∉ [0x000, 0x004, 0x010, 0x014, 0x018, 0x01C, 0x020, 0x024, 0x028, 0x02C,
          0x030, 0x034, 0x040, 0x044, 0x048, 0x050, 0x060, 0x064, 0x068, 0x06C] →
        s.readWindow offset = 0)
    ∧ (s.port.interruptPin = true ↔ (s.port.cause.cpl ∧ s.port.enable.cpl)
        ∨ (s.port.cause.notice ∧ s.port.enable.notice) ∨ (s.port.cause.fault ∧ s.port.enable.fault)
        ∨ (s.port.cause.indexError ∧ s.port.enable.indexError)
        ∨ (s.port.cause.frameA ∧ s.port.enable.frameA)
        ∨ (s.port.cause.frameB ∧ s.port.enable.frameB))

/-- R34, R157: PORT_RESET empties the queue and drops every reservation, zeroes the four indices, clears
CAUSE, ENABLE, the fault record, the activity mark and RUN, discards a command held or a query under way and
stops the processor; bases, sizes and mode stand; pending commits become UNANSWERED; no other record
changes. -/
def Obligations.PortResetKeepsTheRecords : Prop :=
  ∀ s : State, ∃ t, exec .portReset s = .next t
    ∧ t = { s with dirs := t.dirs, port := { s.port with
        run := false, cmdProducer := 0, cmdConsumer := 0, cplWrite := 0, cplRead := 0
        cause := .clear, enable := .clear, fault := none, proc := .stopped, held := none
        query := none, path := none, queue := [], mark := false } }
    ∧ (∀ hd, t.dir hd = { s.dir hd with
        commit := (s.dir hd).commit.map (fun c => { c with answered := false }) })
    ∧ t.reservations = 0

/-- R158 with R3, R35, R37, R42, R56, R57, R60, R67, R74, R79, R91, R100, R104, R115, R123, R128, R129, R159:
DEVICE_RESET puts every block at its device-reset values, without completions. The model's own: the queue of
waiting commands, the pins with their sampling and the bytes of the SDRAM stand (logs 7, 8 and 21), the
latched background is 0 (log 14), and lastWrite is none (log 4). -/
def Obligations.DeviceResetResetsEveryBlock : Prop :=
  ∀ s : State, ∃ t, exec .deviceReset s = .next t
    ∧ t = { State.reset with pending := s.pending, store := s.store, lines := t.lines }
    ∧ (∀ l, t.line l = { s.line l with
        enabled := false, polarity := .activeHigh, debounce := 5, state := .idle, timer := none })
    ∧ t.port = {
        run := false, mode := .each, cmdBase := 0, cmdSize := 0, cmdProducer := 0, cmdConsumer := 0
        cplBase := 0, cplSize := 0, cplWrite := 0, cplRead := 0
        cause := { cpl := false, notice := false, fault := false, indexError := false
                   frameA := false, frameB := false }
        enable := { cpl := false, notice := false, fault := false, indexError := false
                    frameA := false, frameB := false }
        fault := none, proc := .stopped, held := none, query := none, path := none, queue := []
        mark := false, lastWrite := none }
    ∧ t.reservations = 0
    ∧ (∀ hd, (t.head hd).state = .stopped ∧ (t.head hd).standard = .s525
        ∧ (t.head hd).frameNumber = 0 ∧ (t.head hd).background = 0 ∧ (t.head hd).inFlight = false
        ∧ (t.head hd).sending = false ∧ (t.head hd).view.background = 0
        ∧ (t.head hd).view.palette = t.palette
        ∧ (∀ k, (t.head hd).view.shown.get k = none)
        ∧ ∀ i, (t.head hd).claims.get i = none ∧ (t.head hd).view.states.get i = none
          ∧ (t.head hd).view.masks.get i = none)
    ∧ (∀ hd, (t.dir hd).commit = none ∧ (t.dir hd).working.order = [] ∧ (t.dir hd).live.order = []
        ∧ ∀ k, (t.dir hd).working.slots.get k = none ∧ (t.dir hd).live.slots.get k = none
          ∧ t.runtime hd k = none ∧ t.list hd k = [])
    ∧ t.palette.cells = [⟨16, 128, 128⟩, ⟨235, 128, 128⟩, ⟨126, 128, 128⟩, ⟨65, 100, 212⟩,
        ⟨112, 72, 58⟩, ⟨35, 212, 114⟩, ⟨162, 44, 142⟩, ⟨131, 156, 44⟩, ⟨84, 184, 198⟩,
        ⟨40, 128, 128⟩, ⟨60, 128, 128⟩, ⟨80, 128, 128⟩, ⟨100, 128, 128⟩, ⟨150, 128, 128⟩,
        ⟨180, 128, 128⟩, ⟨210, 128, 128⟩]
    ∧ t.params = { lockCount := 4, unstableLimit := 8, lossTimeout := 100 }
    ∧ (∀ i, t.source i = {
        enabled := false, port := i, expect := .auto, hStart := 0, vStart := 0, fieldSwap := false
        state := .off, standard := none, goodRun := 0, badRun := 0, candidate := none
        lastBit := none, lossTimer := none, sawBlank := false, lineOpen := false, field := none })
    ∧ (∀ i, (t.page i).newest = none ∧ (t.page i).writer = none ∧ (t.page i).count = 0
        ∧ (∀ q, (t.page i).heights.get q = 480) ∧ ∀ k, (t.masks.get i).get k = none)
    ∧ (∀ y, t.tour y = none) ∧ (∀ n, t.rule n = none) ∧ t.arrival = 0
    ∧ (∀ k, t.notices.get k = none)

/-! ### Pictures -/

/-- R52, R95 to R98: an interior sample read from a page whose source position lies in a latched mask region
of its source is the mask's: the palette colour, the block's corner sample, or the darkened grey; below the
stored height the loss colour takes the page sample's place; outside every region the sample stands as read.
A page sample is read by point: the luma of stored sample sx of line sy, with the chroma of the stored pair
that holds it; where the line stands in the SDRAM is the model's choice (log 7). -/
def Obligations.LatchedMaskGovernsTheSample : Prop :=
  ∀ (s : State) (hd : Head) (i : SourceId) (pg : PageId) (loss : Colour) (sx sy : Nat),
    (let line := lineAddress i pg sy
     pageSample s i pg sx sy = {
        y := Memory.read s.store (line + 2 * sx + 1)
        cb := Memory.read s.store (line + 2 * (sx - sx % 2))
        cr := Memory.read s.store (line + 2 * (sx - sx % 2) + 2) })
    ∧ ∀ slots : MaskSlots, (s.head hd).view.masks.get i = some slots →
    ((∀ k m, slots.get k = some m → m.contains sx sy = false) →
      readSample s hd i pg loss sx sy =
        if sy < (s.page i).heights.get pg then pageSample s i pg sx sy else loss)
    ∧ ∀ k m, slots.get k = some m → m.contains sx sy = true →
      (∀ k' m', k' < k → slots.get k' = some m' → m'.contains sx sy = false) →
      (∀ colour, m.kind = .solid colour →
        readSample s hd i pg loss sx sy = (s.head hd).view.palette.get colour)
      ∧ (∀ block, m.kind = .mosaic block → readSample s hd i pg loss sx sy =
          if sy < (s.page i).heights.get pg
          then pageSample s i pg (sx - sx % block) (sy - sy % block) else loss)
      ∧ (∀ shift, m.kind = .darken shift →
          let c := if sy < (s.page i).heights.get pg then pageSample s i pg sx sy else loss
          (readSample s hd i pg loss sx sy).cb = 128 ∧ (readSample s hd i pg loss sx sy).cr = 128
          ∧ (readSample s hd i pg loss sx sy).y.toNat =
              if 16 < c.y.toNat then 16 + (c.y.toNat - 16) / 2 ^ shift else 16)

/-- R49 to R51, R53, R54: a sample of the frame in flight is the background's where no tile of LIVE covers
it; else the first tile in rank order gives it: its border, the page sample of LatchedMaskGovernsTheSample,
the loss colour or a pattern bar, by the latched shown source, its latched state, the claimed page and the
loss policy. A pair of samples is sent with the chroma of its even sample. -/
def Obligations.CompositionOfASample : Prop :=
  ∀ (s : State) (hd : Head) (x y : Nat),
    let height := if (s.head hd).standard = .s525 then 480 else 576
    let latched := fun k : ColourId => (s.head hd).view.palette.get k
    ((∀ slot t, slot ∈ (s.dir hd).live.order → s.liveTile hd slot = some t → ¬ Covers t height x y) →
      sample s hd x y = latched (s.head hd).view.background)
    ∧ (∀ front slot back t, (s.dir hd).live.order = front ++ slot :: back →
      s.liveTile hd slot = some t → Covers t height x y →
      (∀ slot' t', slot' ∈ front → s.liveTile hd slot' = some t' → ¬ Covers t' height x y) →
      let u := x - t.geometry.x
      let v := y - t.geometry.y
      let b := t.style.borderWidth
      let border := b ≠ 0 ∧ (u < b ∨ t.geometry.w ≤ u + b ∨ v < b ∨ t.geometry.h ≤ v + b)
      let loss := latched t.style.lossColour
      (border → sample s hd x y = latched t.style.borderColour)
      ∧ (¬ border → (s.head hd).view.shown.get slot = none → sample s hd x y = loss)
      ∧ (¬ border → ∀ i st, (s.head hd).view.shown.get slot = some i →
        (s.head hd).view.states.get i = some st →
        (Written st ∨ t.style.lossPolicy = .freeze →
          ((s.head hd).claims.get i = none → sample s hd x y = loss)
          ∧ ∀ pg, (s.head hd).claims.get i = some pg → sample s hd x y
              = readSample s hd i pg loss (t.view.cx + u * t.view.scale) (t.view.cy + v * t.view.scale))
        ∧ (¬ Written st → t.style.lossPolicy = .black → sample s hd x y = loss)
        ∧ (¬ Written st → t.style.lossPolicy = .pattern →
          ∀ n, t.geometry.w = 8 * n → ∀ (k : Nat) (bar : Colour), k * n ≤ u → u < (k + 1) * n →
            ([⟨235, 128, 128⟩, ⟨162, 44, 142⟩, ⟨131, 156, 44⟩, ⟨112, 72, 58⟩, ⟨84, 184, 198⟩,
              ⟨65, 100, 212⟩, ⟨35, 212, 114⟩, ⟨16, 128, 128⟩] : List Colour)[k]? = some bar →
            sample s hd x y = bar)))
    ∧ (let sent := fun c : Byte => if c = 0 then (1 : Byte) else if c = 255 then 254 else c
       ∀ k, k < 360 → ((activeBytes s hd y).drop (4 * k)).take 4
        = [sent (sample s hd (2 * k) y).cb, sent (sample s hd (2 * k) y).y,
           sent (sample s hd (2 * k) y).cr, sent (sample s hd (2 * k + 1) y).y])

/-- R170: the flag byte of a timing code: what the output port sends, and which bits an input port acts on.
With it, from R62, that an input port takes every 255, 0, 0 in its stream with the byte after it for a
timing code; and, from R58 and R59, the bytes of an output line (its two codes, its horizontal blanking, the
blanking or the frame line it carries, in the length of its standard), the bytes 0 and 255 kept out of its
active part, the lines of a frame in flight, and the idle level before the first frame and after a stop. That
a row may hold several codes is the model's choice (log 30), and that a port between two frames of a running
head sends nothing of its own is its reading (log 19). -/
def Obligations.TimingCodesAndOutputLines : Prop :=
  (∀ field blank final : Bool,
    let b := flagByte field blank final
    b.getLsbD 7 = true ∧ b.getLsbD 6 = field ∧ b.getLsbD 5 = blank ∧ b.getLsbD 4 = final
    ∧ b.getLsbD 3 = (blank ^^ final) ∧ b.getLsbD 2 = (field ^^ final)
    ∧ b.getLsbD 1 = (field ^^ blank) ∧ b.getLsbD 0 = (field ^^ blank ^^ final))
  ∧ (∀ (p : PortId) (f g : Byte) (bytes : List Byte) (s : State),
    f.getLsbD 6 = g.getLsbD 6 → f.getLsbD 5 = g.getLsbD 5 → f.getLsbD 4 = g.getLsbD 4 →
    exec (.timingCode p f bytes) s = exec (.timingCode p g bytes) s)
  ∧ (∀ (p : PortId) (f g : Byte) (before after : List Byte) (s t : State), codeFree before = true →
    exec (.timingCode p g before) s = .next t →
    exec (.timingCode p f (before ++ [255, 0, 0, g] ++ after)) s = exec (.timingCode p f after) t)
  ∧ (∀ (p : PortId) (f : Byte) (before : List Byte) (s : State), codeFree before = true →
    exec (.timingCode p f (before ++ [255, 0, 0])) s = exec (.timingCode p 255 before) s)
  ∧ ∀ (s : State) (hd : Head) (bottom : Bool) (n y : Nat),
    let line := fieldLine s hd bottom n
    let (horizontal, vertical) : Nat × Nat := match (s.head hd).standard, bottom with
      | .s525, false => (268, 22) | .s525, true => (268, 23)
      | .s625, false => (280, 24) | .s625, true => (280, 25)
    line.length = (if (s.head hd).standard = .s525 then 1716 else 1728)
    ∧ line.take 4 = [255, 0, 0, flagByte bottom (n < vertical) true]
    ∧ (∀ k, k < horizontal → (line.drop 4)[k]? = some (if k % 2 = 0 then 128 else 16))
    ∧ (line.drop (4 + horizontal)).take 4 = [255, 0, 0, flagByte bottom (n < vertical) false]
    ∧ (n < vertical → ∀ k, k < 1440 →
        (line.drop (8 + horizontal))[k]? = some (if k % 2 = 0 then 128 else 16))
    ∧ (vertical ≤ n → line.drop (8 + horizontal)
        = activeBytes s hd (2 * (n - vertical) + if bottom then 1 else 0))
    ∧ (∀ b ∈ activeBytes s hd y, b ≠ 0 ∧ b ≠ 255)
    ∧ ((s.head hd).inFlight = true → outputStream s hd
        = (match (s.head hd).standard with
          | .s525 => (List.range 262).flatMap (fieldLine s hd false)
              ++ (List.range 263).flatMap (fieldLine s hd true)
          | .s625 => (List.range 312).flatMap (fieldLine s hd false)
              ++ (List.range 313).flatMap (fieldLine s hd true)))
    ∧ ((s.head hd).inFlight = false → (s.head hd).sending = true → outputStream s hd = [])
    ∧ ((s.head hd).inFlight = false → (s.head hd).sending = false → outputStream s hd = [16])

/-! ### What every step keeps -/

/-- R79, with log 7: the cells of the SDRAM keep their canonical form. -/
def Obligations.EveryStepKeepsTheStoreCanonical : Prop :=
  ∀ s t : State, s.StoreOk → step s = .next t → t.StoreOk

/-- R11: in every bank of every head the rank order holds each DEFINED slot exactly once and no FREE slot. -/
def Obligations.EveryStepKeepsTheRankOrders : Prop :=
  ∀ s t : State, s.RanksOk → step s = .next t → t.RanksOk

/-- R60, R61: OFF holds exactly when enabled is no, and no two sources that are not OFF own one port. -/
def Obligations.EveryStepKeepsPortsApart : Prop :=
  ∀ s t : State, s.SourcesOk → step s = .next t → t.SourcesOk

/-- R27, R39, R41, R46: a STOPPED head carries no commit and no frame, a STOPPING head draws its last frame,
and claims are held only in a frame. -/
def Obligations.EveryStepKeepsHeadsConsistent : Prop :=
  ∀ s t : State, s.HeadsOk → step s = .next t → t.HeadsOk

/-- R81: the writer page of a source is neither its newest page nor held by a head. -/
def Obligations.EveryStepKeepsWriterPagesFree : Prop :=
  ∀ s t : State, s.WritersOk → step s = .next t → t.WritersOk

/-- R144, R145: occupancy, queued completions and reservations never exceed the completion ring, the queue
holds at most 3 completions, and the indices stay in their rings. -/
def Obligations.EveryStepKeepsRoomForAnswers : Prop :=
  ∀ s t : State, s.RingsOk → step s = .next t → t.RingsOk

/-- R128: every call-up list holds at most 4 entries, one for a rule, in order, of DEFINED rules that target
it, and is empty over a FREE slot of LIVE. -/
def Obligations.EveryStepKeepsCallupLists : Prop :=
  ∀ s t : State, s.ListsOk → step s = .next t → t.ListsOk

/-- R100, R104: every bound tour is DEFINED, a runtime exists for every touring LIVE slot and no other, and
its step lies within its tour. -/
def Obligations.EveryStepKeepsTourRuntimes : Prop :=
  ∀ s t : State, s.ToursOk → step s = .next t → t.ToursOk

/-- The machine right after reset meets every invariant. -/
def Obligations.ResetMeetsTheInvariants : Prop :=
  State.reset.StoreOk ∧ State.reset.RanksOk ∧ State.reset.SourcesOk ∧ State.reset.HeadsOk
  ∧ State.reset.WritersOk ∧ State.reset.RingsOk ∧ State.reset.ListsOk ∧ State.reset.ToursOk
end

