-- ==== Sys2Proof/Laws/Tables.lean ====
section
/-! SUPPORT. Reading tables and per-head pairs after they are written. -/

namespace Sys2Proof

namespace Table
variable {n : Nat} {α β : Type}

theorem get_eq (t : Table n α) (i : Fin n) : t.get i = t.cells[i.val]'(by rw [t.size]; exact i.isLt) :=
  rfl

@[simp] theorem get_set_same (t : Table n α) (i : Fin n) (x : α) : (t.set i x).get i = x := by
  simp only [get_eq, set, List.getElem_set_self]

theorem get_set_other (t : Table n α) {i j : Fin n} (x : α) (h : j ≠ i) :
    (t.set i x).get j = t.get j := by
  have e : i.val ≠ j.val := fun e => h (Fin.ext e.symm)
  simp only [get_eq, set, List.getElem_set_ne e]

theorem get_set (t : Table n α) (i j : Fin n) (x : α) :
    (t.set i x).get j = if j = i then x else t.get j := by
  split
  · next h => subst h; exact get_set_same _ _ _
  · next h => exact get_set_other t x h

@[simp] theorem get_ofFn (f : Fin n → α) (i : Fin n) : (ofFn f).get i = f i := by
  simp only [get_eq, ofFn, List.getElem_ofFn, Fin.eta]

@[simp] theorem get_fill (x : α) (i : Fin n) : (fill n x).get i = x := by
  simp only [get_eq, fill, List.getElem_replicate]

@[simp] theorem get_map (f : α → β) (t : Table n α) (i : Fin n) : (t.map f).get i = f (t.get i) := by
  simp only [get_eq, map, List.getElem_map]

/-- Two tables with the same records are the same table. -/
theorem ext_get {t u : Table n α} (h : ∀ i, t.get i = u.get i) : t = u := by
  obtain ⟨l, hl⟩ := t
  obtain ⟨m, hm⟩ := u
  have : l = m := by
    apply List.ext_getElem (hl.trans hm.symm)
    intro k hk hk'
    simpa [get] using h ⟨k, hl ▸ hk⟩
  subst this
  rfl

@[simp] theorem set_get (t : Table n α) (i : Fin n) : t.set i (t.get i) = t :=
  ext_get (fun j => by rw [get_set]; split <;> simp_all)

@[simp] theorem set_set (t : Table n α) (i : Fin n) (x y : α) : (t.set i x).set i y = t.set i y :=
  ext_get (fun j => by simp only [get_set]; split <;> rfl)

theorem cells_eq_map_get (t : Table n α) : t.cells = (List.finRange n).map t.get := by
  apply List.ext_getElem (by simp [t.size])
  intro k hk hk'
  simp [get]

theorem mem_cells {t : Table n α} {x : α} : x ∈ t.cells ↔ ∃ i, t.get i = x := by
  rw [cells_eq_map_get]; simp

theorem count_eq (t : Table n α) (p : α → Bool) :
    t.count p = (List.finRange n).countP (fun i => p (t.get i)) := by
  rw [count, cells_eq_map_get, List.countP_map]; rfl

end Table

namespace PerHead
variable {α : Type}

@[simp] theorem get_set_same (p : PerHead α) (h : Head) (x : α) : (p.set h x).get h = x := by
  cases h <;> rfl

theorem get_set_other (p : PerHead α) {h k : Head} (x : α) (e : k ≠ h) :
    (p.set h x).get k = p.get k := by
  cases h <;> cases k <;> first | rfl | exact absurd rfl e

theorem get_set (p : PerHead α) (h k : Head) (x : α) :
    (p.set h x).get k = if k = h then x else p.get k := by
  cases h <;> cases k <;> rfl

@[simp] theorem set_get (p : PerHead α) (h : Head) : p.set h (p.get h) = p := by
  cases h <;> rfl

@[simp] theorem set_set (p : PerHead α) (h : Head) (x y : α) : (p.set h x).set h y = p.set h y := by
  cases h <;> rfl

@[simp] theorem get_both (x : α) (h : Head) : (both x).get h = x := by
  cases h <;> rfl

theorem ext_get {p q : PerHead α} (e : ∀ h, p.get h = q.get h) : p = q := by
  obtain ⟨a, b⟩ := p
  obtain ⟨c, d⟩ := q
  have ha := e .a
  have hb := e .b
  simp only [get] at ha hb
  rw [ha, hb]

end PerHead

/-- A run through every number below `n` in turn, as the chain of what it passes through. -/
theorem foldl_finRange_chain {α : Type} (n : Nat) (g : α → Fin n → α) (a : α) :
    ∃ f : Fin (n + 1) → α, f 0 = a ∧ f (Fin.last n) = (List.finRange n).foldl g a
      ∧ ∀ i, f i.succ = g (f i.castSucc) i := by
  induction n generalizing a with
  | zero => exact ⟨fun _ => a, rfl, rfl, fun i => i.elim0⟩
  | succ n ih =>
      obtain ⟨f, f0, fl, fs⟩ := ih (fun x i => g x i.succ) (g a 0)
      refine ⟨Fin.cons a f, rfl, ?_, fun i => ?_⟩
      · rw [List.finRange_succ, List.foldl_cons, List.foldl_map, ← fl]
        rfl
      · refine Fin.cases ?_ (fun j => ?_) i
        · exact f0
        · exact fs j

end Sys2Proof
end

