-- ==== Sys2Proof/Laws/State.lean ====
section
/-! SUPPORT. The fields of State after each update, one lemma per field per update, and the records read
after each update. -/

namespace Sys2Proof.Machine.State

@[simp] theorem setPort_pending (s : State) (p : Port) : (s.setPort p).pending = s.pending := rfl
@[simp] theorem setPort_port (s : State) (p : Port) : (s.setPort p).port = p := rfl
@[simp] theorem setPort_dirs (s : State) (p : Port) : (s.setPort p).dirs = s.dirs := rfl
@[simp] theorem setPort_heads (s : State) (p : Port) : (s.setPort p).heads = s.heads := rfl
@[simp] theorem setPort_palette (s : State) (p : Port) : (s.setPort p).palette = s.palette := rfl
@[simp] theorem setPort_sources (s : State) (p : Port) : (s.setPort p).sources = s.sources := rfl
@[simp] theorem setPort_params (s : State) (p : Port) : (s.setPort p).params = s.params := rfl
@[simp] theorem setPort_pages (s : State) (p : Port) : (s.setPort p).pages = s.pages := rfl
@[simp] theorem setPort_store (s : State) (p : Port) : (s.setPort p).store = s.store := rfl
@[simp] theorem setPort_masks (s : State) (p : Port) : (s.setPort p).masks = s.masks := rfl
@[simp] theorem setPort_tours (s : State) (p : Port) : (s.setPort p).tours = s.tours := rfl
@[simp] theorem setPort_runtimes (s : State) (p : Port) : (s.setPort p).runtimes = s.runtimes := rfl
@[simp] theorem setPort_lines (s : State) (p : Port) : (s.setPort p).lines = s.lines := rfl
@[simp] theorem setPort_rules (s : State) (p : Port) : (s.setPort p).rules = s.rules := rfl
@[simp] theorem setPort_lists (s : State) (p : Port) : (s.setPort p).lists = s.lists := rfl
@[simp] theorem setPort_arrival (s : State) (p : Port) : (s.setPort p).arrival = s.arrival := rfl
@[simp] theorem setPort_notices (s : State) (p : Port) : (s.setPort p).notices = s.notices := rfl

@[simp] theorem setDir_pending (s : State) (h : Head) (d : Directory) : (s.setDir h d).pending = s.pending := rfl
@[simp] theorem setDir_port (s : State) (h : Head) (d : Directory) : (s.setDir h d).port = s.port := rfl
@[simp] theorem setDir_dirs (s : State) (h : Head) (d : Directory) : (s.setDir h d).dirs = s.dirs.set h d := rfl
@[simp] theorem setDir_heads (s : State) (h : Head) (d : Directory) : (s.setDir h d).heads = s.heads := rfl
@[simp] theorem setDir_palette (s : State) (h : Head) (d : Directory) : (s.setDir h d).palette = s.palette := rfl
@[simp] theorem setDir_sources (s : State) (h : Head) (d : Directory) : (s.setDir h d).sources = s.sources := rfl
@[simp] theorem setDir_params (s : State) (h : Head) (d : Directory) : (s.setDir h d).params = s.params := rfl
@[simp] theorem setDir_pages (s : State) (h : Head) (d : Directory) : (s.setDir h d).pages = s.pages := rfl
@[simp] theorem setDir_store (s : State) (h : Head) (d : Directory) : (s.setDir h d).store = s.store := rfl
@[simp] theorem setDir_masks (s : State) (h : Head) (d : Directory) : (s.setDir h d).masks = s.masks := rfl
@[simp] theorem setDir_tours (s : State) (h : Head) (d : Directory) : (s.setDir h d).tours = s.tours := rfl
@[simp] theorem setDir_runtimes (s : State) (h : Head) (d : Directory) : (s.setDir h d).runtimes = s.runtimes := rfl
@[simp] theorem setDir_lines (s : State) (h : Head) (d : Directory) : (s.setDir h d).lines = s.lines := rfl
@[simp] theorem setDir_rules (s : State) (h : Head) (d : Directory) : (s.setDir h d).rules = s.rules := rfl
@[simp] theorem setDir_lists (s : State) (h : Head) (d : Directory) : (s.setDir h d).lists = s.lists := rfl
@[simp] theorem setDir_arrival (s : State) (h : Head) (d : Directory) : (s.setDir h d).arrival = s.arrival := rfl
@[simp] theorem setDir_notices (s : State) (h : Head) (d : Directory) : (s.setDir h d).notices = s.notices := rfl

@[simp] theorem setHead_pending (s : State) (h : Head) (r : HeadRecord) : (s.setHead h r).pending = s.pending := rfl
@[simp] theorem setHead_port (s : State) (h : Head) (r : HeadRecord) : (s.setHead h r).port = s.port := rfl
@[simp] theorem setHead_dirs (s : State) (h : Head) (r : HeadRecord) : (s.setHead h r).dirs = s.dirs := rfl
@[simp] theorem setHead_heads (s : State) (h : Head) (r : HeadRecord) : (s.setHead h r).heads = s.heads.set h r := rfl
@[simp] theorem setHead_palette (s : State) (h : Head) (r : HeadRecord) : (s.setHead h r).palette = s.palette := rfl
@[simp] theorem setHead_sources (s : State) (h : Head) (r : HeadRecord) : (s.setHead h r).sources = s.sources := rfl
@[simp] theorem setHead_params (s : State) (h : Head) (r : HeadRecord) : (s.setHead h r).params = s.params := rfl
@[simp] theorem setHead_pages (s : State) (h : Head) (r : HeadRecord) : (s.setHead h r).pages = s.pages := rfl
@[simp] theorem setHead_store (s : State) (h : Head) (r : HeadRecord) : (s.setHead h r).store = s.store := rfl
@[simp] theorem setHead_masks (s : State) (h : Head) (r : HeadRecord) : (s.setHead h r).masks = s.masks := rfl
@[simp] theorem setHead_tours (s : State) (h : Head) (r : HeadRecord) : (s.setHead h r).tours = s.tours := rfl
@[simp] theorem setHead_runtimes (s : State) (h : Head) (r : HeadRecord) : (s.setHead h r).runtimes = s.runtimes := rfl
@[simp] theorem setHead_lines (s : State) (h : Head) (r : HeadRecord) : (s.setHead h r).lines = s.lines := rfl
@[simp] theorem setHead_rules (s : State) (h : Head) (r : HeadRecord) : (s.setHead h r).rules = s.rules := rfl
@[simp] theorem setHead_lists (s : State) (h : Head) (r : HeadRecord) : (s.setHead h r).lists = s.lists := rfl
@[simp] theorem setHead_arrival (s : State) (h : Head) (r : HeadRecord) : (s.setHead h r).arrival = s.arrival := rfl
@[simp] theorem setHead_notices (s : State) (h : Head) (r : HeadRecord) : (s.setHead h r).notices = s.notices := rfl

@[simp] theorem setSource_pending (s : State) (i : SourceId) (r : SourceRecord) : (s.setSource i r).pending = s.pending := rfl
@[simp] theorem setSource_port (s : State) (i : SourceId) (r : SourceRecord) : (s.setSource i r).port = s.port := rfl
@[simp] theorem setSource_dirs (s : State) (i : SourceId) (r : SourceRecord) : (s.setSource i r).dirs = s.dirs := rfl
@[simp] theorem setSource_heads (s : State) (i : SourceId) (r : SourceRecord) : (s.setSource i r).heads = s.heads := rfl
@[simp] theorem setSource_palette (s : State) (i : SourceId) (r : SourceRecord) : (s.setSource i r).palette = s.palette := rfl
@[simp] theorem setSource_sources (s : State) (i : SourceId) (r : SourceRecord) : (s.setSource i r).sources = s.sources.set i r := rfl
@[simp] theorem setSource_params (s : State) (i : SourceId) (r : SourceRecord) : (s.setSource i r).params = s.params := rfl
@[simp] theorem setSource_pages (s : State) (i : SourceId) (r : SourceRecord) : (s.setSource i r).pages = s.pages := rfl
@[simp] theorem setSource_store (s : State) (i : SourceId) (r : SourceRecord) : (s.setSource i r).store = s.store := rfl
@[simp] theorem setSource_masks (s : State) (i : SourceId) (r : SourceRecord) : (s.setSource i r).masks = s.masks := rfl
@[simp] theorem setSource_tours (s : State) (i : SourceId) (r : SourceRecord) : (s.setSource i r).tours = s.tours := rfl
@[simp] theorem setSource_runtimes (s : State) (i : SourceId) (r : SourceRecord) : (s.setSource i r).runtimes = s.runtimes := rfl
@[simp] theorem setSource_lines (s : State) (i : SourceId) (r : SourceRecord) : (s.setSource i r).lines = s.lines := rfl
@[simp] theorem setSource_rules (s : State) (i : SourceId) (r : SourceRecord) : (s.setSource i r).rules = s.rules := rfl
@[simp] theorem setSource_lists (s : State) (i : SourceId) (r : SourceRecord) : (s.setSource i r).lists = s.lists := rfl
@[simp] theorem setSource_arrival (s : State) (i : SourceId) (r : SourceRecord) : (s.setSource i r).arrival = s.arrival := rfl
@[simp] theorem setSource_notices (s : State) (i : SourceId) (r : SourceRecord) : (s.setSource i r).notices = s.notices := rfl

@[simp] theorem setPage_pending (s : State) (i : SourceId) (t : PageTable) : (s.setPage i t).pending = s.pending := rfl
@[simp] theorem setPage_port (s : State) (i : SourceId) (t : PageTable) : (s.setPage i t).port = s.port := rfl
@[simp] theorem setPage_dirs (s : State) (i : SourceId) (t : PageTable) : (s.setPage i t).dirs = s.dirs := rfl
@[simp] theorem setPage_heads (s : State) (i : SourceId) (t : PageTable) : (s.setPage i t).heads = s.heads := rfl
@[simp] theorem setPage_palette (s : State) (i : SourceId) (t : PageTable) : (s.setPage i t).palette = s.palette := rfl
@[simp] theorem setPage_sources (s : State) (i : SourceId) (t : PageTable) : (s.setPage i t).sources = s.sources := rfl
@[simp] theorem setPage_params (s : State) (i : SourceId) (t : PageTable) : (s.setPage i t).params = s.params := rfl
@[simp] theorem setPage_pages (s : State) (i : SourceId) (t : PageTable) : (s.setPage i t).pages = s.pages.set i t := rfl
@[simp] theorem setPage_store (s : State) (i : SourceId) (t : PageTable) : (s.setPage i t).store = s.store := rfl
@[simp] theorem setPage_masks (s : State) (i : SourceId) (t : PageTable) : (s.setPage i t).masks = s.masks := rfl
@[simp] theorem setPage_tours (s : State) (i : SourceId) (t : PageTable) : (s.setPage i t).tours = s.tours := rfl
@[simp] theorem setPage_runtimes (s : State) (i : SourceId) (t : PageTable) : (s.setPage i t).runtimes = s.runtimes := rfl
@[simp] theorem setPage_lines (s : State) (i : SourceId) (t : PageTable) : (s.setPage i t).lines = s.lines := rfl
@[simp] theorem setPage_rules (s : State) (i : SourceId) (t : PageTable) : (s.setPage i t).rules = s.rules := rfl
@[simp] theorem setPage_lists (s : State) (i : SourceId) (t : PageTable) : (s.setPage i t).lists = s.lists := rfl
@[simp] theorem setPage_arrival (s : State) (i : SourceId) (t : PageTable) : (s.setPage i t).arrival = s.arrival := rfl
@[simp] theorem setPage_notices (s : State) (i : SourceId) (t : PageTable) : (s.setPage i t).notices = s.notices := rfl

@[simp] theorem setStore_pending (s : State) (m : List Host.Cell) : (s.setStore m).pending = s.pending := rfl
@[simp] theorem setStore_port (s : State) (m : List Host.Cell) : (s.setStore m).port = s.port := rfl
@[simp] theorem setStore_dirs (s : State) (m : List Host.Cell) : (s.setStore m).dirs = s.dirs := rfl
@[simp] theorem setStore_heads (s : State) (m : List Host.Cell) : (s.setStore m).heads = s.heads := rfl
@[simp] theorem setStore_palette (s : State) (m : List Host.Cell) : (s.setStore m).palette = s.palette := rfl
@[simp] theorem setStore_sources (s : State) (m : List Host.Cell) : (s.setStore m).sources = s.sources := rfl
@[simp] theorem setStore_params (s : State) (m : List Host.Cell) : (s.setStore m).params = s.params := rfl
@[simp] theorem setStore_pages (s : State) (m : List Host.Cell) : (s.setStore m).pages = s.pages := rfl
@[simp] theorem setStore_store (s : State) (m : List Host.Cell) : (s.setStore m).store = m := rfl
@[simp] theorem setStore_masks (s : State) (m : List Host.Cell) : (s.setStore m).masks = s.masks := rfl
@[simp] theorem setStore_tours (s : State) (m : List Host.Cell) : (s.setStore m).tours = s.tours := rfl
@[simp] theorem setStore_runtimes (s : State) (m : List Host.Cell) : (s.setStore m).runtimes = s.runtimes := rfl
@[simp] theorem setStore_lines (s : State) (m : List Host.Cell) : (s.setStore m).lines = s.lines := rfl
@[simp] theorem setStore_rules (s : State) (m : List Host.Cell) : (s.setStore m).rules = s.rules := rfl
@[simp] theorem setStore_lists (s : State) (m : List Host.Cell) : (s.setStore m).lists = s.lists := rfl
@[simp] theorem setStore_arrival (s : State) (m : List Host.Cell) : (s.setStore m).arrival = s.arrival := rfl
@[simp] theorem setStore_notices (s : State) (m : List Host.Cell) : (s.setStore m).notices = s.notices := rfl

@[simp] theorem setTour_pending (s : State) (y : TourId) (t : Option Tour) : (s.setTour y t).pending = s.pending := rfl
@[simp] theorem setTour_port (s : State) (y : TourId) (t : Option Tour) : (s.setTour y t).port = s.port := rfl
@[simp] theorem setTour_dirs (s : State) (y : TourId) (t : Option Tour) : (s.setTour y t).dirs = s.dirs := rfl
@[simp] theorem setTour_heads (s : State) (y : TourId) (t : Option Tour) : (s.setTour y t).heads = s.heads := rfl
@[simp] theorem setTour_palette (s : State) (y : TourId) (t : Option Tour) : (s.setTour y t).palette = s.palette := rfl
@[simp] theorem setTour_sources (s : State) (y : TourId) (t : Option Tour) : (s.setTour y t).sources = s.sources := rfl
@[simp] theorem setTour_params (s : State) (y : TourId) (t : Option Tour) : (s.setTour y t).params = s.params := rfl
@[simp] theorem setTour_pages (s : State) (y : TourId) (t : Option Tour) : (s.setTour y t).pages = s.pages := rfl
@[simp] theorem setTour_store (s : State) (y : TourId) (t : Option Tour) : (s.setTour y t).store = s.store := rfl
@[simp] theorem setTour_masks (s : State) (y : TourId) (t : Option Tour) : (s.setTour y t).masks = s.masks := rfl
@[simp] theorem setTour_tours (s : State) (y : TourId) (t : Option Tour) : (s.setTour y t).tours = s.tours.set y t := rfl
@[simp] theorem setTour_runtimes (s : State) (y : TourId) (t : Option Tour) : (s.setTour y t).runtimes = s.runtimes := rfl
@[simp] theorem setTour_lines (s : State) (y : TourId) (t : Option Tour) : (s.setTour y t).lines = s.lines := rfl
@[simp] theorem setTour_rules (s : State) (y : TourId) (t : Option Tour) : (s.setTour y t).rules = s.rules := rfl
@[simp] theorem setTour_lists (s : State) (y : TourId) (t : Option Tour) : (s.setTour y t).lists = s.lists := rfl
@[simp] theorem setTour_arrival (s : State) (y : TourId) (t : Option Tour) : (s.setTour y t).arrival = s.arrival := rfl
@[simp] theorem setTour_notices (s : State) (y : TourId) (t : Option Tour) : (s.setTour y t).notices = s.notices := rfl

@[simp] theorem setLine_pending (s : State) (l : LineId) (r : LineRecord) : (s.setLine l r).pending = s.pending := rfl
@[simp] theorem setLine_port (s : State) (l : LineId) (r : LineRecord) : (s.setLine l r).port = s.port := rfl
@[simp] theorem setLine_dirs (s : State) (l : LineId) (r : LineRecord) : (s.setLine l r).dirs = s.dirs := rfl
@[simp] theorem setLine_heads (s : State) (l : LineId) (r : LineRecord) : (s.setLine l r).heads = s.heads := rfl
@[simp] theorem setLine_palette (s : State) (l : LineId) (r : LineRecord) : (s.setLine l r).palette = s.palette := rfl
@[simp] theorem setLine_sources (s : State) (l : LineId) (r : LineRecord) : (s.setLine l r).sources = s.sources := rfl
@[simp] theorem setLine_params (s : State) (l : LineId) (r : LineRecord) : (s.setLine l r).params = s.params := rfl
@[simp] theorem setLine_pages (s : State) (l : LineId) (r : LineRecord) : (s.setLine l r).pages = s.pages := rfl
@[simp] theorem setLine_store (s : State) (l : LineId) (r : LineRecord) : (s.setLine l r).store = s.store := rfl
@[simp] theorem setLine_masks (s : State) (l : LineId) (r : LineRecord) : (s.setLine l r).masks = s.masks := rfl
@[simp] theorem setLine_tours (s : State) (l : LineId) (r : LineRecord) : (s.setLine l r).tours = s.tours := rfl
@[simp] theorem setLine_runtimes (s : State) (l : LineId) (r : LineRecord) : (s.setLine l r).runtimes = s.runtimes := rfl
@[simp] theorem setLine_lines (s : State) (l : LineId) (r : LineRecord) : (s.setLine l r).lines = s.lines.set l r := rfl
@[simp] theorem setLine_rules (s : State) (l : LineId) (r : LineRecord) : (s.setLine l r).rules = s.rules := rfl
@[simp] theorem setLine_lists (s : State) (l : LineId) (r : LineRecord) : (s.setLine l r).lists = s.lists := rfl
@[simp] theorem setLine_arrival (s : State) (l : LineId) (r : LineRecord) : (s.setLine l r).arrival = s.arrival := rfl
@[simp] theorem setLine_notices (s : State) (l : LineId) (r : LineRecord) : (s.setLine l r).notices = s.notices := rfl

@[simp] theorem setRule_pending (s : State) (n : RuleId) (r : Option Rule) : (s.setRule n r).pending = s.pending := rfl
@[simp] theorem setRule_port (s : State) (n : RuleId) (r : Option Rule) : (s.setRule n r).port = s.port := rfl
@[simp] theorem setRule_dirs (s : State) (n : RuleId) (r : Option Rule) : (s.setRule n r).dirs = s.dirs := rfl
@[simp] theorem setRule_heads (s : State) (n : RuleId) (r : Option Rule) : (s.setRule n r).heads = s.heads := rfl
@[simp] theorem setRule_palette (s : State) (n : RuleId) (r : Option Rule) : (s.setRule n r).palette = s.palette := rfl
@[simp] theorem setRule_sources (s : State) (n : RuleId) (r : Option Rule) : (s.setRule n r).sources = s.sources := rfl
@[simp] theorem setRule_params (s : State) (n : RuleId) (r : Option Rule) : (s.setRule n r).params = s.params := rfl
@[simp] theorem setRule_pages (s : State) (n : RuleId) (r : Option Rule) : (s.setRule n r).pages = s.pages := rfl
@[simp] theorem setRule_store (s : State) (n : RuleId) (r : Option Rule) : (s.setRule n r).store = s.store := rfl
@[simp] theorem setRule_masks (s : State) (n : RuleId) (r : Option Rule) : (s.setRule n r).masks = s.masks := rfl
@[simp] theorem setRule_tours (s : State) (n : RuleId) (r : Option Rule) : (s.setRule n r).tours = s.tours := rfl
@[simp] theorem setRule_runtimes (s : State) (n : RuleId) (r : Option Rule) : (s.setRule n r).runtimes = s.runtimes := rfl
@[simp] theorem setRule_lines (s : State) (n : RuleId) (r : Option Rule) : (s.setRule n r).lines = s.lines := rfl
@[simp] theorem setRule_rules (s : State) (n : RuleId) (r : Option Rule) : (s.setRule n r).rules = s.rules.set n r := rfl
@[simp] theorem setRule_lists (s : State) (n : RuleId) (r : Option Rule) : (s.setRule n r).lists = s.lists := rfl
@[simp] theorem setRule_arrival (s : State) (n : RuleId) (r : Option Rule) : (s.setRule n r).arrival = s.arrival := rfl
@[simp] theorem setRule_notices (s : State) (n : RuleId) (r : Option Rule) : (s.setRule n r).notices = s.notices := rfl

@[simp] theorem setRuntime_pending (s : State) (h : Head) (k : SlotId) (r : Option Runtime) : (s.setRuntime h k r).pending = s.pending := rfl
@[simp] theorem setRuntime_port (s : State) (h : Head) (k : SlotId) (r : Option Runtime) : (s.setRuntime h k r).port = s.port := rfl
@[simp] theorem setRuntime_dirs (s : State) (h : Head) (k : SlotId) (r : Option Runtime) : (s.setRuntime h k r).dirs = s.dirs := rfl
@[simp] theorem setRuntime_heads (s : State) (h : Head) (k : SlotId) (r : Option Runtime) : (s.setRuntime h k r).heads = s.heads := rfl
@[simp] theorem setRuntime_palette (s : State) (h : Head) (k : SlotId) (r : Option Runtime) : (s.setRuntime h k r).palette = s.palette := rfl
@[simp] theorem setRuntime_sources (s : State) (h : Head) (k : SlotId) (r : Option Runtime) : (s.setRuntime h k r).sources = s.sources := rfl
@[simp] theorem setRuntime_params (s : State) (h : Head) (k : SlotId) (r : Option Runtime) : (s.setRuntime h k r).params = s.params := rfl
@[simp] theorem setRuntime_pages (s : State) (h : Head) (k : SlotId) (r : Option Runtime) : (s.setRuntime h k r).pages = s.pages := rfl
@[simp] theorem setRuntime_store (s : State) (h : Head) (k : SlotId) (r : Option Runtime) : (s.setRuntime h k r).store = s.store := rfl
@[simp] theorem setRuntime_masks (s : State) (h : Head) (k : SlotId) (r : Option Runtime) : (s.setRuntime h k r).masks = s.masks := rfl
@[simp] theorem setRuntime_tours (s : State) (h : Head) (k : SlotId) (r : Option Runtime) : (s.setRuntime h k r).tours = s.tours := rfl
@[simp] theorem setRuntime_runtimes (s : State) (h : Head) (k : SlotId) (r : Option Runtime) : (s.setRuntime h k r).runtimes = s.runtimes.set h ((s.runtimes.get h).set k r) := rfl
@[simp] theorem setRuntime_lines (s : State) (h : Head) (k : SlotId) (r : Option Runtime) : (s.setRuntime h k r).lines = s.lines := rfl
@[simp] theorem setRuntime_rules (s : State) (h : Head) (k : SlotId) (r : Option Runtime) : (s.setRuntime h k r).rules = s.rules := rfl
@[simp] theorem setRuntime_lists (s : State) (h : Head) (k : SlotId) (r : Option Runtime) : (s.setRuntime h k r).lists = s.lists := rfl
@[simp] theorem setRuntime_arrival (s : State) (h : Head) (k : SlotId) (r : Option Runtime) : (s.setRuntime h k r).arrival = s.arrival := rfl
@[simp] theorem setRuntime_notices (s : State) (h : Head) (k : SlotId) (r : Option Runtime) : (s.setRuntime h k r).notices = s.notices := rfl

@[simp] theorem setList_pending (s : State) (h : Head) (k : SlotId) (l : List Entry) : (s.setList h k l).pending = s.pending := rfl
@[simp] theorem setList_port (s : State) (h : Head) (k : SlotId) (l : List Entry) : (s.setList h k l).port = s.port := rfl
@[simp] theorem setList_dirs (s : State) (h : Head) (k : SlotId) (l : List Entry) : (s.setList h k l).dirs = s.dirs := rfl
@[simp] theorem setList_heads (s : State) (h : Head) (k : SlotId) (l : List Entry) : (s.setList h k l).heads = s.heads := rfl
@[simp] theorem setList_palette (s : State) (h : Head) (k : SlotId) (l : List Entry) : (s.setList h k l).palette = s.palette := rfl
@[simp] theorem setList_sources (s : State) (h : Head) (k : SlotId) (l : List Entry) : (s.setList h k l).sources = s.sources := rfl
@[simp] theorem setList_params (s : State) (h : Head) (k : SlotId) (l : List Entry) : (s.setList h k l).params = s.params := rfl
@[simp] theorem setList_pages (s : State) (h : Head) (k : SlotId) (l : List Entry) : (s.setList h k l).pages = s.pages := rfl
@[simp] theorem setList_store (s : State) (h : Head) (k : SlotId) (l : List Entry) : (s.setList h k l).store = s.store := rfl
@[simp] theorem setList_masks (s : State) (h : Head) (k : SlotId) (l : List Entry) : (s.setList h k l).masks = s.masks := rfl
@[simp] theorem setList_tours (s : State) (h : Head) (k : SlotId) (l : List Entry) : (s.setList h k l).tours = s.tours := rfl
@[simp] theorem setList_runtimes (s : State) (h : Head) (k : SlotId) (l : List Entry) : (s.setList h k l).runtimes = s.runtimes := rfl
@[simp] theorem setList_lines (s : State) (h : Head) (k : SlotId) (l : List Entry) : (s.setList h k l).lines = s.lines := rfl
@[simp] theorem setList_rules (s : State) (h : Head) (k : SlotId) (l : List Entry) : (s.setList h k l).rules = s.rules := rfl
@[simp] theorem setList_lists (s : State) (h : Head) (k : SlotId) (l : List Entry) : (s.setList h k l).lists = s.lists.set h ((s.lists.get h).set k l) := rfl
@[simp] theorem setList_arrival (s : State) (h : Head) (k : SlotId) (l : List Entry) : (s.setList h k l).arrival = s.arrival := rfl
@[simp] theorem setList_notices (s : State) (h : Head) (k : SlotId) (l : List Entry) : (s.setList h k l).notices = s.notices := rfl

@[simp] theorem setColour_pending (s : State) (k : ColourId) (c : Colour) : (s.setColour k c).pending = s.pending := rfl
@[simp] theorem setColour_port (s : State) (k : ColourId) (c : Colour) : (s.setColour k c).port = s.port := rfl
@[simp] theorem setColour_dirs (s : State) (k : ColourId) (c : Colour) : (s.setColour k c).dirs = s.dirs := rfl
@[simp] theorem setColour_heads (s : State) (k : ColourId) (c : Colour) : (s.setColour k c).heads = s.heads := rfl
@[simp] theorem setColour_palette (s : State) (k : ColourId) (c : Colour) : (s.setColour k c).palette = s.palette.set k c := rfl
@[simp] theorem setColour_sources (s : State) (k : ColourId) (c : Colour) : (s.setColour k c).sources = s.sources := rfl
@[simp] theorem setColour_params (s : State) (k : ColourId) (c : Colour) : (s.setColour k c).params = s.params := rfl
@[simp] theorem setColour_pages (s : State) (k : ColourId) (c : Colour) : (s.setColour k c).pages = s.pages := rfl
@[simp] theorem setColour_store (s : State) (k : ColourId) (c : Colour) : (s.setColour k c).store = s.store := rfl
@[simp] theorem setColour_masks (s : State) (k : ColourId) (c : Colour) : (s.setColour k c).masks = s.masks := rfl
@[simp] theorem setColour_tours (s : State) (k : ColourId) (c : Colour) : (s.setColour k c).tours = s.tours := rfl
@[simp] theorem setColour_runtimes (s : State) (k : ColourId) (c : Colour) : (s.setColour k c).runtimes = s.runtimes := rfl
@[simp] theorem setColour_lines (s : State) (k : ColourId) (c : Colour) : (s.setColour k c).lines = s.lines := rfl
@[simp] theorem setColour_rules (s : State) (k : ColourId) (c : Colour) : (s.setColour k c).rules = s.rules := rfl
@[simp] theorem setColour_lists (s : State) (k : ColourId) (c : Colour) : (s.setColour k c).lists = s.lists := rfl
@[simp] theorem setColour_arrival (s : State) (k : ColourId) (c : Colour) : (s.setColour k c).arrival = s.arrival := rfl
@[simp] theorem setColour_notices (s : State) (k : ColourId) (c : Colour) : (s.setColour k c).notices = s.notices := rfl

@[simp] theorem setMasks_pending (s : State) (i : SourceId) (m : MaskSlots) : (s.setMasks i m).pending = s.pending := rfl
@[simp] theorem setMasks_port (s : State) (i : SourceId) (m : MaskSlots) : (s.setMasks i m).port = s.port := rfl
@[simp] theorem setMasks_dirs (s : State) (i : SourceId) (m : MaskSlots) : (s.setMasks i m).dirs = s.dirs := rfl
@[simp] theorem setMasks_heads (s : State) (i : SourceId) (m : MaskSlots) : (s.setMasks i m).heads = s.heads := rfl
@[simp] theorem setMasks_palette (s : State) (i : SourceId) (m : MaskSlots) : (s.setMasks i m).palette = s.palette := rfl
@[simp] theorem setMasks_sources (s : State) (i : SourceId) (m : MaskSlots) : (s.setMasks i m).sources = s.sources := rfl
@[simp] theorem setMasks_params (s : State) (i : SourceId) (m : MaskSlots) : (s.setMasks i m).params = s.params := rfl
@[simp] theorem setMasks_pages (s : State) (i : SourceId) (m : MaskSlots) : (s.setMasks i m).pages = s.pages := rfl
@[simp] theorem setMasks_store (s : State) (i : SourceId) (m : MaskSlots) : (s.setMasks i m).store = s.store := rfl
@[simp] theorem setMasks_masks (s : State) (i : SourceId) (m : MaskSlots) : (s.setMasks i m).masks = s.masks.set i m := rfl
@[simp] theorem setMasks_tours (s : State) (i : SourceId) (m : MaskSlots) : (s.setMasks i m).tours = s.tours := rfl
@[simp] theorem setMasks_runtimes (s : State) (i : SourceId) (m : MaskSlots) : (s.setMasks i m).runtimes = s.runtimes := rfl
@[simp] theorem setMasks_lines (s : State) (i : SourceId) (m : MaskSlots) : (s.setMasks i m).lines = s.lines := rfl
@[simp] theorem setMasks_rules (s : State) (i : SourceId) (m : MaskSlots) : (s.setMasks i m).rules = s.rules := rfl
@[simp] theorem setMasks_lists (s : State) (i : SourceId) (m : MaskSlots) : (s.setMasks i m).lists = s.lists := rfl
@[simp] theorem setMasks_arrival (s : State) (i : SourceId) (m : MaskSlots) : (s.setMasks i m).arrival = s.arrival := rfl
@[simp] theorem setMasks_notices (s : State) (i : SourceId) (m : MaskSlots) : (s.setMasks i m).notices = s.notices := rfl

@[simp] theorem setPort_dir (s : State) (p' : Port) (h : Head) : (s.setPort p').dir h = s.dir h := rfl
@[simp] theorem setPort_head (s : State) (p' : Port) (h : Head) : (s.setPort p').head h = s.head h := rfl
@[simp] theorem setPort_source (s : State) (p' : Port) (i : SourceId) : (s.setPort p').source i = s.source i := rfl
@[simp] theorem setPort_page (s : State) (p' : Port) (i : SourceId) : (s.setPort p').page i = s.page i := rfl
@[simp] theorem setPort_tour (s : State) (p' : Port) (y : TourId) : (s.setPort p').tour y = s.tour y := rfl
@[simp] theorem setPort_rule (s : State) (p' : Port) (n : RuleId) : (s.setPort p').rule n = s.rule n := rfl
@[simp] theorem setPort_line (s : State) (p' : Port) (l : LineId) : (s.setPort p').line l = s.line l := rfl
@[simp] theorem setPort_runtime (s : State) (p' : Port) (h : Head) (k : SlotId) : (s.setPort p').runtime h k = s.runtime h k := rfl
@[simp] theorem setPort_list (s : State) (p' : Port) (h : Head) (k : SlotId) : (s.setPort p').list h k = s.list h k := rfl
@[simp] theorem setPort_liveTile (s : State) (p' : Port) (h : Head) (k : SlotId) : (s.setPort p').liveTile h k = s.liveTile h k := rfl

@[simp] theorem setDir_head (s : State) (h' : Head) (d' : Directory) (h : Head) : (s.setDir h' d').head h = s.head h := rfl
@[simp] theorem setDir_source (s : State) (h' : Head) (d' : Directory) (i : SourceId) : (s.setDir h' d').source i = s.source i := rfl
@[simp] theorem setDir_page (s : State) (h' : Head) (d' : Directory) (i : SourceId) : (s.setDir h' d').page i = s.page i := rfl
@[simp] theorem setDir_tour (s : State) (h' : Head) (d' : Directory) (y : TourId) : (s.setDir h' d').tour y = s.tour y := rfl
@[simp] theorem setDir_rule (s : State) (h' : Head) (d' : Directory) (n : RuleId) : (s.setDir h' d').rule n = s.rule n := rfl
@[simp] theorem setDir_line (s : State) (h' : Head) (d' : Directory) (l : LineId) : (s.setDir h' d').line l = s.line l := rfl
@[simp] theorem setDir_runtime (s : State) (h' : Head) (d' : Directory) (h : Head) (k : SlotId) : (s.setDir h' d').runtime h k = s.runtime h k := rfl
@[simp] theorem setDir_list (s : State) (h' : Head) (d' : Directory) (h : Head) (k : SlotId) : (s.setDir h' d').list h k = s.list h k := rfl

@[simp] theorem setHead_dir (s : State) (h' : Head) (r' : HeadRecord) (h : Head) : (s.setHead h' r').dir h = s.dir h := rfl
@[simp] theorem setHead_source (s : State) (h' : Head) (r' : HeadRecord) (i : SourceId) : (s.setHead h' r').source i = s.source i := rfl
@[simp] theorem setHead_page (s : State) (h' : Head) (r' : HeadRecord) (i : SourceId) : (s.setHead h' r').page i = s.page i := rfl
@[simp] theorem setHead_tour (s : State) (h' : Head) (r' : HeadRecord) (y : TourId) : (s.setHead h' r').tour y = s.tour y := rfl
@[simp] theorem setHead_rule (s : State) (h' : Head) (r' : HeadRecord) (n : RuleId) : (s.setHead h' r').rule n = s.rule n := rfl
@[simp] theorem setHead_line (s : State) (h' : Head) (r' : HeadRecord) (l : LineId) : (s.setHead h' r').line l = s.line l := rfl
@[simp] theorem setHead_runtime (s : State) (h' : Head) (r' : HeadRecord) (h : Head) (k : SlotId) : (s.setHead h' r').runtime h k = s.runtime h k := rfl
@[simp] theorem setHead_list (s : State) (h' : Head) (r' : HeadRecord) (h : Head) (k : SlotId) : (s.setHead h' r').list h k = s.list h k := rfl
@[simp] theorem setHead_liveTile (s : State) (h' : Head) (r' : HeadRecord) (h : Head) (k : SlotId) : (s.setHead h' r').liveTile h k = s.liveTile h k := rfl

@[simp] theorem setSource_dir (s : State) (i' : SourceId) (r' : SourceRecord) (h : Head) : (s.setSource i' r').dir h = s.dir h := rfl
@[simp] theorem setSource_head (s : State) (i' : SourceId) (r' : SourceRecord) (h : Head) : (s.setSource i' r').head h = s.head h := rfl
@[simp] theorem setSource_page (s : State) (i' : SourceId) (r' : SourceRecord) (i : SourceId) : (s.setSource i' r').page i = s.page i := rfl
@[simp] theorem setSource_tour (s : State) (i' : SourceId) (r' : SourceRecord) (y : TourId) : (s.setSource i' r').tour y = s.tour y := rfl
@[simp] theorem setSource_rule (s : State) (i' : SourceId) (r' : SourceRecord) (n : RuleId) : (s.setSource i' r').rule n = s.rule n := rfl
@[simp] theorem setSource_line (s : State) (i' : SourceId) (r' : SourceRecord) (l : LineId) : (s.setSource i' r').line l = s.line l := rfl
@[simp] theorem setSource_runtime (s : State) (i' : SourceId) (r' : SourceRecord) (h : Head) (k : SlotId) : (s.setSource i' r').runtime h k = s.runtime h k := rfl
@[simp] theorem setSource_list (s : State) (i' : SourceId) (r' : SourceRecord) (h : Head) (k : SlotId) : (s.setSource i' r').list h k = s.list h k := rfl
@[simp] theorem setSource_liveTile (s : State) (i' : SourceId) (r' : SourceRecord) (h : Head) (k : SlotId) : (s.setSource i' r').liveTile h k = s.liveTile h k := rfl

@[simp] theorem setPage_dir (s : State) (i' : SourceId) (t' : PageTable) (h : Head) : (s.setPage i' t').dir h = s.dir h := rfl
@[simp] theorem setPage_head (s : State) (i' : SourceId) (t' : PageTable) (h : Head) : (s.setPage i' t').head h = s.head h := rfl
@[simp] theorem setPage_source (s : State) (i' : SourceId) (t' : PageTable) (i : SourceId) : (s.setPage i' t').source i = s.source i := rfl
@[simp] theorem setPage_tour (s : State) (i' : SourceId) (t' : PageTable) (y : TourId) : (s.setPage i' t').tour y = s.tour y := rfl
@[simp] theorem setPage_rule (s : State) (i' : SourceId) (t' : PageTable) (n : RuleId) : (s.setPage i' t').rule n = s.rule n := rfl
@[simp] theorem setPage_line (s : State) (i' : SourceId) (t' : PageTable) (l : LineId) : (s.setPage i' t').line l = s.line l := rfl
@[simp] theorem setPage_runtime (s : State) (i' : SourceId) (t' : PageTable) (h : Head) (k : SlotId) : (s.setPage i' t').runtime h k = s.runtime h k := rfl
@[simp] theorem setPage_list (s : State) (i' : SourceId) (t' : PageTable) (h : Head) (k : SlotId) : (s.setPage i' t').list h k = s.list h k := rfl
@[simp] theorem setPage_liveTile (s : State) (i' : SourceId) (t' : PageTable) (h : Head) (k : SlotId) : (s.setPage i' t').liveTile h k = s.liveTile h k := rfl

@[simp] theorem setStore_dir (s : State) (m' : List Host.Cell) (h : Head) : (s.setStore m').dir h = s.dir h := rfl
@[simp] theorem setStore_head (s : State) (m' : List Host.Cell) (h : Head) : (s.setStore m').head h = s.head h := rfl
@[simp] theorem setStore_source (s : State) (m' : List Host.Cell) (i : SourceId) : (s.setStore m').source i = s.source i := rfl
@[simp] theorem setStore_page (s : State) (m' : List Host.Cell) (i : SourceId) : (s.setStore m').page i = s.page i := rfl
@[simp] theorem setStore_tour (s : State) (m' : List Host.Cell) (y : TourId) : (s.setStore m').tour y = s.tour y := rfl
@[simp] theorem setStore_rule (s : State) (m' : List Host.Cell) (n : RuleId) : (s.setStore m').rule n = s.rule n := rfl
@[simp] theorem setStore_line (s : State) (m' : List Host.Cell) (l : LineId) : (s.setStore m').line l = s.line l := rfl
@[simp] theorem setStore_runtime (s : State) (m' : List Host.Cell) (h : Head) (k : SlotId) : (s.setStore m').runtime h k = s.runtime h k := rfl
@[simp] theorem setStore_list (s : State) (m' : List Host.Cell) (h : Head) (k : SlotId) : (s.setStore m').list h k = s.list h k := rfl
@[simp] theorem setStore_liveTile (s : State) (m' : List Host.Cell) (h : Head) (k : SlotId) : (s.setStore m').liveTile h k = s.liveTile h k := rfl

@[simp] theorem setTour_dir (s : State) (y' : TourId) (t' : Option Tour) (h : Head) : (s.setTour y' t').dir h = s.dir h := rfl
@[simp] theorem setTour_head (s : State) (y' : TourId) (t' : Option Tour) (h : Head) : (s.setTour y' t').head h = s.head h := rfl
@[simp] theorem setTour_source (s : State) (y' : TourId) (t' : Option Tour) (i : SourceId) : (s.setTour y' t').source i = s.source i := rfl
@[simp] theorem setTour_page (s : State) (y' : TourId) (t' : Option Tour) (i : SourceId) : (s.setTour y' t').page i = s.page i := rfl
@[simp] theorem setTour_rule (s : State) (y' : TourId) (t' : Option Tour) (n : RuleId) : (s.setTour y' t').rule n = s.rule n := rfl
@[simp] theorem setTour_line (s : State) (y' : TourId) (t' : Option Tour) (l : LineId) : (s.setTour y' t').line l = s.line l := rfl
@[simp] theorem setTour_runtime (s : State) (y' : TourId) (t' : Option Tour) (h : Head) (k : SlotId) : (s.setTour y' t').runtime h k = s.runtime h k := rfl
@[simp] theorem setTour_list (s : State) (y' : TourId) (t' : Option Tour) (h : Head) (k : SlotId) : (s.setTour y' t').list h k = s.list h k := rfl
@[simp] theorem setTour_liveTile (s : State) (y' : TourId) (t' : Option Tour) (h : Head) (k : SlotId) : (s.setTour y' t').liveTile h k = s.liveTile h k := rfl

@[simp] theorem setLine_dir (s : State) (l' : LineId) (r' : LineRecord) (h : Head) : (s.setLine l' r').dir h = s.dir h := rfl
@[simp] theorem setLine_head (s : State) (l' : LineId) (r' : LineRecord) (h : Head) : (s.setLine l' r').head h = s.head h := rfl
@[simp] theorem setLine_source (s : State) (l' : LineId) (r' : LineRecord) (i : SourceId) : (s.setLine l' r').source i = s.source i := rfl
@[simp] theorem setLine_page (s : State) (l' : LineId) (r' : LineRecord) (i : SourceId) : (s.setLine l' r').page i = s.page i := rfl
@[simp] theorem setLine_tour (s : State) (l' : LineId) (r' : LineRecord) (y : TourId) : (s.setLine l' r').tour y = s.tour y := rfl
@[simp] theorem setLine_rule (s : State) (l' : LineId) (r' : LineRecord) (n : RuleId) : (s.setLine l' r').rule n = s.rule n := rfl
@[simp] theorem setLine_runtime (s : State) (l' : LineId) (r' : LineRecord) (h : Head) (k : SlotId) : (s.setLine l' r').runtime h k = s.runtime h k := rfl
@[simp] theorem setLine_list (s : State) (l' : LineId) (r' : LineRecord) (h : Head) (k : SlotId) : (s.setLine l' r').list h k = s.list h k := rfl
@[simp] theorem setLine_liveTile (s : State) (l' : LineId) (r' : LineRecord) (h : Head) (k : SlotId) : (s.setLine l' r').liveTile h k = s.liveTile h k := rfl

@[simp] theorem setRule_dir (s : State) (n' : RuleId) (r' : Option Rule) (h : Head) : (s.setRule n' r').dir h = s.dir h := rfl
@[simp] theorem setRule_head (s : State) (n' : RuleId) (r' : Option Rule) (h : Head) : (s.setRule n' r').head h = s.head h := rfl
@[simp] theorem setRule_source (s : State) (n' : RuleId) (r' : Option Rule) (i : SourceId) : (s.setRule n' r').source i = s.source i := rfl
@[simp] theorem setRule_page (s : State) (n' : RuleId) (r' : Option Rule) (i : SourceId) : (s.setRule n' r').page i = s.page i := rfl
@[simp] theorem setRule_tour (s : State) (n' : RuleId) (r' : Option Rule) (y : TourId) : (s.setRule n' r').tour y = s.tour y := rfl
@[simp] theorem setRule_line (s : State) (n' : RuleId) (r' : Option Rule) (l : LineId) : (s.setRule n' r').line l = s.line l := rfl
@[simp] theorem setRule_runtime (s : State) (n' : RuleId) (r' : Option Rule) (h : Head) (k : SlotId) : (s.setRule n' r').runtime h k = s.runtime h k := rfl
@[simp] theorem setRule_list (s : State) (n' : RuleId) (r' : Option Rule) (h : Head) (k : SlotId) : (s.setRule n' r').list h k = s.list h k := rfl
@[simp] theorem setRule_liveTile (s : State) (n' : RuleId) (r' : Option Rule) (h : Head) (k : SlotId) : (s.setRule n' r').liveTile h k = s.liveTile h k := rfl

@[simp] theorem setRuntime_dir (s : State) (h' : Head) (k' : SlotId) (r' : Option Runtime) (h : Head) : (s.setRuntime h' k' r').dir h = s.dir h := rfl
@[simp] theorem setRuntime_head (s : State) (h' : Head) (k' : SlotId) (r' : Option Runtime) (h : Head) : (s.setRuntime h' k' r').head h = s.head h := rfl
@[simp] theorem setRuntime_source (s : State) (h' : Head) (k' : SlotId) (r' : Option Runtime) (i : SourceId) : (s.setRuntime h' k' r').source i = s.source i := rfl
@[simp] theorem setRuntime_page (s : State) (h' : Head) (k' : SlotId) (r' : Option Runtime) (i : SourceId) : (s.setRuntime h' k' r').page i = s.page i := rfl
@[simp] theorem setRuntime_tour (s : State) (h' : Head) (k' : SlotId) (r' : Option Runtime) (y : TourId) : (s.setRuntime h' k' r').tour y = s.tour y := rfl
@[simp] theorem setRuntime_rule (s : State) (h' : Head) (k' : SlotId) (r' : Option Runtime) (n : RuleId) : (s.setRuntime h' k' r').rule n = s.rule n := rfl
@[simp] theorem setRuntime_line (s : State) (h' : Head) (k' : SlotId) (r' : Option Runtime) (l : LineId) : (s.setRuntime h' k' r').line l = s.line l := rfl
@[simp] theorem setRuntime_list (s : State) (h' : Head) (k' : SlotId) (r' : Option Runtime) (h : Head) (k : SlotId) : (s.setRuntime h' k' r').list h k = s.list h k := rfl
@[simp] theorem setRuntime_liveTile (s : State) (h' : Head) (k' : SlotId) (r' : Option Runtime) (h : Head) (k : SlotId) : (s.setRuntime h' k' r').liveTile h k = s.liveTile h k := rfl

@[simp] theorem setList_dir (s : State) (h' : Head) (k' : SlotId) (l' : List Entry) (h : Head) : (s.setList h' k' l').dir h = s.dir h := rfl
@[simp] theorem setList_head (s : State) (h' : Head) (k' : SlotId) (l' : List Entry) (h : Head) : (s.setList h' k' l').head h = s.head h := rfl
@[simp] theorem setList_source (s : State) (h' : Head) (k' : SlotId) (l' : List Entry) (i : SourceId) : (s.setList h' k' l').source i = s.source i := rfl
@[simp] theorem setList_page (s : State) (h' : Head) (k' : SlotId) (l' : List Entry) (i : SourceId) : (s.setList h' k' l').page i = s.page i := rfl
@[simp] theorem setList_tour (s : State) (h' : Head) (k' : SlotId) (l' : List Entry) (y : TourId) : (s.setList h' k' l').tour y = s.tour y := rfl
@[simp] theorem setList_rule (s : State) (h' : Head) (k' : SlotId) (l' : List Entry) (n : RuleId) : (s.setList h' k' l').rule n = s.rule n := rfl
@[simp] theorem setList_line (s : State) (h' : Head) (k' : SlotId) (l' : List Entry) (l : LineId) : (s.setList h' k' l').line l = s.line l := rfl
@[simp] theorem setList_runtime (s : State) (h' : Head) (k' : SlotId) (l' : List Entry) (h : Head) (k : SlotId) : (s.setList h' k' l').runtime h k = s.runtime h k := rfl
@[simp] theorem setList_liveTile (s : State) (h' : Head) (k' : SlotId) (l' : List Entry) (h : Head) (k : SlotId) : (s.setList h' k' l').liveTile h k = s.liveTile h k := rfl

@[simp] theorem setColour_dir (s : State) (k' : ColourId) (c' : Colour) (h : Head) : (s.setColour k' c').dir h = s.dir h := rfl
@[simp] theorem setColour_head (s : State) (k' : ColourId) (c' : Colour) (h : Head) : (s.setColour k' c').head h = s.head h := rfl
@[simp] theorem setColour_source (s : State) (k' : ColourId) (c' : Colour) (i : SourceId) : (s.setColour k' c').source i = s.source i := rfl
@[simp] theorem setColour_page (s : State) (k' : ColourId) (c' : Colour) (i : SourceId) : (s.setColour k' c').page i = s.page i := rfl
@[simp] theorem setColour_tour (s : State) (k' : ColourId) (c' : Colour) (y : TourId) : (s.setColour k' c').tour y = s.tour y := rfl
@[simp] theorem setColour_rule (s : State) (k' : ColourId) (c' : Colour) (n : RuleId) : (s.setColour k' c').rule n = s.rule n := rfl
@[simp] theorem setColour_line (s : State) (k' : ColourId) (c' : Colour) (l : LineId) : (s.setColour k' c').line l = s.line l := rfl
@[simp] theorem setColour_runtime (s : State) (k' : ColourId) (c' : Colour) (h : Head) (k : SlotId) : (s.setColour k' c').runtime h k = s.runtime h k := rfl
@[simp] theorem setColour_list (s : State) (k' : ColourId) (c' : Colour) (h : Head) (k : SlotId) : (s.setColour k' c').list h k = s.list h k := rfl
@[simp] theorem setColour_liveTile (s : State) (k' : ColourId) (c' : Colour) (h : Head) (k : SlotId) : (s.setColour k' c').liveTile h k = s.liveTile h k := rfl

@[simp] theorem setMasks_dir (s : State) (i' : SourceId) (m' : MaskSlots) (h : Head) : (s.setMasks i' m').dir h = s.dir h := rfl
@[simp] theorem setMasks_head (s : State) (i' : SourceId) (m' : MaskSlots) (h : Head) : (s.setMasks i' m').head h = s.head h := rfl
@[simp] theorem setMasks_source (s : State) (i' : SourceId) (m' : MaskSlots) (i : SourceId) : (s.setMasks i' m').source i = s.source i := rfl
@[simp] theorem setMasks_page (s : State) (i' : SourceId) (m' : MaskSlots) (i : SourceId) : (s.setMasks i' m').page i = s.page i := rfl
@[simp] theorem setMasks_tour (s : State) (i' : SourceId) (m' : MaskSlots) (y : TourId) : (s.setMasks i' m').tour y = s.tour y := rfl
@[simp] theorem setMasks_rule (s : State) (i' : SourceId) (m' : MaskSlots) (n : RuleId) : (s.setMasks i' m').rule n = s.rule n := rfl
@[simp] theorem setMasks_line (s : State) (i' : SourceId) (m' : MaskSlots) (l : LineId) : (s.setMasks i' m').line l = s.line l := rfl
@[simp] theorem setMasks_runtime (s : State) (i' : SourceId) (m' : MaskSlots) (h : Head) (k : SlotId) : (s.setMasks i' m').runtime h k = s.runtime h k := rfl
@[simp] theorem setMasks_list (s : State) (i' : SourceId) (m' : MaskSlots) (h : Head) (k : SlotId) : (s.setMasks i' m').list h k = s.list h k := rfl
@[simp] theorem setMasks_liveTile (s : State) (i' : SourceId) (m' : MaskSlots) (h : Head) (k : SlotId) : (s.setMasks i' m').liveTile h k = s.liveTile h k := rfl

@[simp] theorem setDir_dir_same (s : State) (h : Head) (d : Directory) : (s.setDir h d).dir h = d :=
  PerHead.get_set_same _ _ _

theorem setDir_dir (s : State) (h j : Head) (d : Directory) :
    (s.setDir h d).dir j = if j = h then d else s.dir j :=
  PerHead.get_set _ _ _ _

@[simp] theorem setDir_self (s : State) (h : Head) : s.setDir h (s.dir h) = s := by
  simp [setDir, dir]

@[simp] theorem setDir_twice (s : State) (h : Head) (d d' : Directory) :
    (s.setDir h d).setDir h d' = s.setDir h d' := by
  simp [setDir]

@[simp] theorem setHead_head_same (s : State) (h : Head) (r : HeadRecord) : (s.setHead h r).head h = r :=
  PerHead.get_set_same _ _ _

theorem setHead_head (s : State) (h j : Head) (r : HeadRecord) :
    (s.setHead h r).head j = if j = h then r else s.head j :=
  PerHead.get_set _ _ _ _

@[simp] theorem setHead_self (s : State) (h : Head) : s.setHead h (s.head h) = s := by
  simp [setHead, head]

@[simp] theorem setHead_twice (s : State) (h : Head) (r r' : HeadRecord) :
    (s.setHead h r).setHead h r' = s.setHead h r' := by
  simp [setHead]

@[simp] theorem setSource_source_same (s : State) (i : SourceId) (r : SourceRecord) : (s.setSource i r).source i = r :=
  Table.get_set_same _ _ _

theorem setSource_source (s : State) (i j : SourceId) (r : SourceRecord) :
    (s.setSource i r).source j = if j = i then r else s.source j :=
  Table.get_set _ _ _ _

@[simp] theorem setSource_self (s : State) (i : SourceId) : s.setSource i (s.source i) = s := by
  simp [setSource, source]

@[simp] theorem setSource_twice (s : State) (i : SourceId) (r r' : SourceRecord) :
    (s.setSource i r).setSource i r' = s.setSource i r' := by
  simp [setSource]

@[simp] theorem setPage_page_same (s : State) (i : SourceId) (t : PageTable) : (s.setPage i t).page i = t :=
  Table.get_set_same _ _ _

theorem setPage_page (s : State) (i j : SourceId) (t : PageTable) :
    (s.setPage i t).page j = if j = i then t else s.page j :=
  Table.get_set _ _ _ _

@[simp] theorem setPage_self (s : State) (i : SourceId) : s.setPage i (s.page i) = s := by
  simp [setPage, page]

@[simp] theorem setPage_twice (s : State) (i : SourceId) (t t' : PageTable) :
    (s.setPage i t).setPage i t' = s.setPage i t' := by
  simp [setPage]

@[simp] theorem setTour_tour_same (s : State) (y : TourId) (t : Option Tour) : (s.setTour y t).tour y = t :=
  Table.get_set_same _ _ _

theorem setTour_tour (s : State) (y j : TourId) (t : Option Tour) :
    (s.setTour y t).tour j = if j = y then t else s.tour j :=
  Table.get_set _ _ _ _

@[simp] theorem setTour_self (s : State) (y : TourId) : s.setTour y (s.tour y) = s := by
  simp [setTour, tour]

@[simp] theorem setTour_twice (s : State) (y : TourId) (t t' : Option Tour) :
    (s.setTour y t).setTour y t' = s.setTour y t' := by
  simp [setTour]

@[simp] theorem setLine_line_same (s : State) (l : LineId) (r : LineRecord) : (s.setLine l r).line l = r :=
  Table.get_set_same _ _ _

theorem setLine_line (s : State) (l j : LineId) (r : LineRecord) :
    (s.setLine l r).line j = if j = l then r else s.line j :=
  Table.get_set _ _ _ _

@[simp] theorem setLine_self (s : State) (l : LineId) : s.setLine l (s.line l) = s := by
  simp [setLine, line]

@[simp] theorem setLine_twice (s : State) (l : LineId) (r r' : LineRecord) :
    (s.setLine l r).setLine l r' = s.setLine l r' := by
  simp [setLine]

@[simp] theorem setRule_rule_same (s : State) (n : RuleId) (r : Option Rule) : (s.setRule n r).rule n = r :=
  Table.get_set_same _ _ _

theorem setRule_rule (s : State) (n j : RuleId) (r : Option Rule) :
    (s.setRule n r).rule j = if j = n then r else s.rule j :=
  Table.get_set _ _ _ _

@[simp] theorem setRule_self (s : State) (n : RuleId) : s.setRule n (s.rule n) = s := by
  simp [setRule, rule]

@[simp] theorem setRule_twice (s : State) (n : RuleId) (r r' : Option Rule) :
    (s.setRule n r).setRule n r' = s.setRule n r' := by
  simp [setRule]

@[simp] theorem setRuntime_runtime_same (s : State) (h : Head) (k : SlotId) (r : Option Runtime) :
    (s.setRuntime h k r).runtime h k = r := by
  simp [setRuntime, runtime]

theorem setRuntime_runtime (s : State) (h h' : Head) (k k' : SlotId) (r : Option Runtime) :
    (s.setRuntime h k r).runtime h' k' = if h' = h ∧ k' = k then r else s.runtime h' k' := by
  by_cases e : h' = h
  · subst e; simp [setRuntime, runtime, Table.get_set]
  · simp [setRuntime, runtime, PerHead.get_set_other _ _ e, e]

@[simp] theorem setRuntime_self (s : State) (h : Head) (k : SlotId) : s.setRuntime h k (s.runtime h k) = s := by
  simp [setRuntime, runtime]

@[simp] theorem setRuntime_twice (s : State) (h : Head) (k : SlotId) (r r' : Option Runtime) :
    (s.setRuntime h k r).setRuntime h k r' = s.setRuntime h k r' := by
  simp [setRuntime]

@[simp] theorem setList_list_same (s : State) (h : Head) (k : SlotId) (l : List Entry) :
    (s.setList h k l).list h k = l := by
  simp [setList, list]

theorem setList_list (s : State) (h h' : Head) (k k' : SlotId) (l : List Entry) :
    (s.setList h k l).list h' k' = if h' = h ∧ k' = k then l else s.list h' k' := by
  by_cases e : h' = h
  · subst e; simp [setList, list, Table.get_set]
  · simp [setList, list, PerHead.get_set_other _ _ e, e]

@[simp] theorem setList_self (s : State) (h : Head) (k : SlotId) : s.setList h k (s.list h k) = s := by
  simp [setList, list]

@[simp] theorem setList_twice (s : State) (h : Head) (k : SlotId) (l l' : List Entry) :
    (s.setList h k l).setList h k l' = s.setList h k l' := by
  simp [setList]

@[simp] theorem setPort_twice (s : State) (p q : Port) : (s.setPort p).setPort q = s.setPort q := rfl

@[simp] theorem setPort_self (s : State) : s.setPort s.port = s := rfl

end Sys2Proof.Machine.State
end

