-- ==== Sys2Proof/Laws/Notices.lean ====
section
/-! SUPPORT. The notice set and `raise`: reads after a raise, and what a run of raises leaves of the port
and of the set. -/

namespace Sys2Proof.Machine

namespace NoticeSet

@[simp] theorem get_put_same (n : NoticeSet) (k : NoticeKey) (v : Option NoticeValue) :
    (n.put k v).get k = v := by
  cases k <;> simp [put, get]

theorem get_put_other (n : NoticeSet) {k j : NoticeKey} (v : Option NoticeValue) (h : j ≠ k) :
    (n.put k v).get j = n.get j := by
  cases k <;> cases j <;> first
    | rfl
    | (simp only [put, get]; exact Table.get_set_other _ _ (fun e => h (by rw [e])))
    | (next h1 s1 h2 s2 =>
        by_cases e : h2 = h1
        · subst e
          simp only [put, get, PerHead.get_set_same]
          exact Table.get_set_other _ _ (fun e => h (by rw [e]))
        · simp only [put, get, PerHead.get_set_other _ _ e])

theorem get_put (n : NoticeSet) (k j : NoticeKey) (v : Option NoticeValue) :
    (n.put k v).get j = if j = k then v else n.get j := by
  split
  · next h => subst h; exact get_put_same _ _ _
  · next h => exact get_put_other n v h

end NoticeSet

namespace State

theorem raise_eq (s : State) (k : NoticeKey) (v : NoticeValue) : s.raise k v = { s with
    notices := s.notices.put k (some v)
    port := { s.port with cause := { s.port.cause with
      notice := s.port.cause.notice || (s.notices.get k).isNone } } } := rfl

@[simp] theorem raise_notices (s : State) (k : NoticeKey) (v : NoticeValue) :
    (s.raise k v).notices = s.notices.put k (some v) := rfl

@[simp] theorem raise_dir (s : State) (k : NoticeKey) (v : NoticeValue) (h : Head) :
    (s.raise k v).dir h = s.dir h := rfl

@[simp] theorem raise_head (s : State) (k : NoticeKey) (v : NoticeValue) (h : Head) :
    (s.raise k v).head h = s.head h := rfl

@[simp] theorem raise_source (s : State) (k : NoticeKey) (v : NoticeValue) (i : SourceId) :
    (s.raise k v).source i = s.source i := rfl

@[simp] theorem raise_page (s : State) (k : NoticeKey) (v : NoticeValue) (i : SourceId) :
    (s.raise k v).page i = s.page i := rfl

@[simp] theorem raise_tour (s : State) (k : NoticeKey) (v : NoticeValue) (y : TourId) :
    (s.raise k v).tour y = s.tour y := rfl

@[simp] theorem raise_rule (s : State) (k : NoticeKey) (v : NoticeValue) (n : RuleId) :
    (s.raise k v).rule n = s.rule n := rfl

@[simp] theorem raise_line (s : State) (k : NoticeKey) (v : NoticeValue) (l : LineId) :
    (s.raise k v).line l = s.line l := rfl

@[simp] theorem raise_runtime (s : State) (k : NoticeKey) (v : NoticeValue) (h : Head)
    (slot : SlotId) : (s.raise k v).runtime h slot = s.runtime h slot := rfl

@[simp] theorem raise_list (s : State) (k : NoticeKey) (v : NoticeValue) (h : Head) (slot : SlotId) :
    (s.raise k v).list h slot = s.list h slot := rfl

@[simp] theorem raise_liveTile (s : State) (k : NoticeKey) (v : NoticeValue) (h : Head)
    (slot : SlotId) : (s.raise k v).liveTile h slot = s.liveTile h slot := rfl

/-- What raises alone do to the port and the notice set: cause NOTICE and no other field of the port
may change, no notice leaves, and the cause is set exactly where it was or a key was added. -/
def Heard (s t : State) : Prop :=
  t.port = { s.port with cause := { s.port.cause with notice := t.port.cause.notice } }
  ∧ Noticed s t
  ∧ ∀ k, s.notices.get k ≠ none → t.notices.get k ≠ none

theorem heard_of_same {s t : State} (p : t.port = s.port) (n : t.notices = s.notices) :
    Heard s t := by
  refine ⟨?_, ?_, ?_⟩
  · rw [p]
  · unfold Noticed
    rw [p, n]
    exact ⟨.inl, fun h => h.elim id (fun ⟨k, a, b⟩ => absurd a b)⟩
  · rw [n]; exact fun _ h => h

theorem heard_raise (s : State) (k : NoticeKey) (v : NoticeValue) : Heard s (s.raise k v) := by
  refine ⟨rfl, ?_, ?_⟩
  · unfold Noticed
    show (s.port.cause.notice || (s.notices.get k).isNone) = true ↔ _
    rw [Bool.or_eq_true, Option.isNone_iff_eq_none]
    refine or_congr Iff.rfl ⟨fun h => ⟨k, h, by simp⟩, ?_⟩
    rintro ⟨j, hj, hn⟩
    by_cases e : j = k
    · subst e; exact hj
    · rw [raise_notices, NoticeSet.get_put_other _ _ e] at hn
      exact absurd hj hn
  · intro j hj
    rw [raise_notices, NoticeSet.get_put]
    split
    · simp
    · exact hj

theorem Heard.trans {s t u : State} (a : Heard s t) (b : Heard t u) : Heard s u := by
  obtain ⟨a1, a2, a3⟩ := a
  obtain ⟨b1, b2, b3⟩ := b
  refine ⟨?_, ?_, fun k h => b3 k (a3 k h)⟩
  · rw [b1, a1]
  · unfold Noticed at *
    rw [b2, a2]
    constructor
    · rintro ((h | ⟨k, h1, h2⟩) | ⟨k, h1, h2⟩)
      · exact .inl h
      · exact .inr ⟨k, h1, b3 k h2⟩
      · refine .inr ⟨k, ?_, h2⟩
        by_contra c
        exact a3 k c h1
    · rintro (h | ⟨k, h1, h2⟩)
      · exact .inl (.inl h)
      · by_cases c : t.notices.get k = none
        · exact .inr ⟨k, c, h2⟩
        · exact .inl (.inr ⟨k, h1, c⟩)

theorem Heard.raise {s t : State} (a : Heard s t) (k : NoticeKey) (v : NoticeValue) :
    Heard s (t.raise k v) := a.trans (heard_raise t k v)

/-- A change of other records between raises does not matter. -/
theorem Heard.congr {s t u : State} (a : Heard s t) (p : u.port = t.port)
    (n : u.notices = t.notices) : Heard s u := a.trans (heard_of_same p n)

end State

/-- R138: a list replaced, in the terms of Safety. -/
theorem replaceList_eq (s : State) (h : Head) (slot : SlotId) (l : List Entry) :
    s.replaceList h slot l = s.relisted h slot l := rfl

theorem heard_relisted (s : State) (h : Head) (slot : SlotId) (l : List Entry) :
    State.Heard s (s.relisted h slot l) := by
  unfold State.relisted
  simp only []
  split
  · exact State.heard_of_same rfl rfl
  · exact (State.heard_of_same rfl rfl).raise _ _

theorem relisted_records (s : State) (h : Head) (slot : SlotId) (l : List Entry) :
    s.relisted h slot l = { s with
      port := (s.relisted h slot l).port
      lists := s.lists.set h ((s.lists.get h).set slot l)
      notices := (s.relisted h slot l).notices } := by
  unfold State.relisted
  simp only []
  split <;> rfl

theorem relisted_get (s : State) (h : Head) (slot : SlotId) (l : List Entry) (k : NoticeKey) :
    (s.relisted h slot l).notices.get k =
      if k = .callupChange h slot ∧ topRule l ≠ topRule (s.list h slot) then some (.top (topRule l))
      else s.notices.get k := by
  unfold State.relisted
  simp only []
  by_cases c : topRule l = topRule (s.list h slot)
  · rw [if_pos c, if_neg (fun d => d.2 c)]
  · rw [if_neg c, State.raise_notices, NoticeSet.get_put]
    by_cases hk : k = .callupChange h slot
    · rw [if_pos hk, if_pos ⟨hk, c⟩]
    · rw [if_neg hk, if_neg (fun d => hk d.1)]

theorem relisted_list (s : State) (h : Head) (slot : SlotId) (l : List Entry) (h' : Head)
    (slot' : SlotId) : (s.relisted h slot l).list h' slot'
      = if h' = h ∧ slot' = slot then l else s.list h' slot' := by
  have e : (s.relisted h slot l).lists = s.lists.set h ((s.lists.get h).set slot l) := by
    rw [relisted_records]
  unfold State.list
  rw [e, PerHead.get_set]
  by_cases eh : h' = h
  · subst eh
    rw [if_pos rfl, Table.get_set]
    simp only [true_and]
  · rw [if_neg eh, if_neg (fun c => eh c.1)]

end Sys2Proof.Machine
end

