-- ==== Sys2Proof/Laws/Carry.lean ====
section
/-! SUPPORT. The carry-over of an application (R31, R32): what a cancelled list, a run of cancelled lists
and the whole carry-over leave. -/

namespace Sys2Proof.Machine

open State (Heard heard_of_same)

/-- Only the port, the call-up lists and the notices differ. -/
def OnlyLists (s t : State) : Prop :=
  t = { s with port := t.port, lists := t.lists, notices := t.notices }

theorem OnlyLists.trans {s t u : State} (a : OnlyLists s t) (b : OnlyLists t u) : OnlyLists s u := by
  unfold OnlyLists at *
  rw [a] at b
  exact b

theorem onlyLists_relisted (s : State) (h : Head) (slot : SlotId) (l : List Entry) :
    OnlyLists s (s.relisted h slot l) := by
  unfold OnlyLists State.relisted
  simp only []
  split <;> rfl

/-- The notices R32 raises for the entries of a cancelled list. -/
def raiseCancelled (l : List Entry) (s : State) : State :=
  l.foldl (fun t e => t.raise (.callupRefused e.rule) (.reason .cancelled)) s

theorem raiseCancelled_records (l : List Entry) (s : State) : OnlyLists s (raiseCancelled l s) := by
  unfold raiseCancelled
  induction l generalizing s with
  | nil => rfl
  | cons e l ih => exact OnlyLists.trans (show OnlyLists s (s.raise _ _) from rfl) (ih _)

theorem heard_raiseCancelled (l : List Entry) (s : State) : Heard s (raiseCancelled l s) := by
  unfold raiseCancelled
  induction l generalizing s with
  | nil => exact heard_of_same rfl rfl
  | cons e l ih => exact (State.heard_raise s _ _).trans (ih _)

theorem raiseCancelled_get (l : List Entry) (s : State) (k : NoticeKey) :
    (raiseCancelled l s).notices.get k = if ∃ e ∈ l, k = .callupRefused e.rule
      then some (.reason .cancelled) else s.notices.get k := by
  unfold raiseCancelled
  induction l generalizing s with
  | nil => simp
  | cons e l ih =>
      rw [List.foldl_cons, ih, State.raise_notices, NoticeSet.get_put]
      by_cases h : ∃ f ∈ l, k = .callupRefused f.rule
      · rw [if_pos h, if_pos (h.elim fun f hf => ⟨f, List.mem_cons_of_mem _ hf.1, hf.2⟩)]
      · rw [if_neg h]
        by_cases hk : k = .callupRefused e.rule
        · rw [if_pos hk, if_pos ⟨e, List.mem_cons_self, hk⟩]
        · rw [if_neg hk, if_neg]
          rintro ⟨f, hf, e'⟩
          rcases List.mem_cons.1 hf with rfl | hf
          · exact hk e'
          · exact h ⟨f, hf, e'⟩

theorem cancelList_eq (h : Head) (slot : SlotId) (s : State) :
    cancelList h slot s = (raiseCancelled (s.list h slot) s).relisted h slot [] := rfl

theorem raiseCancelled_list (l : List Entry) (s : State) (h : Head) (slot : SlotId) :
    (raiseCancelled l s).list h slot = s.list h slot := by
  unfold raiseCancelled
  induction l generalizing s with
  | nil => rfl
  | cons e l ih => exact ih _

theorem cancelList_records (h : Head) (slot : SlotId) (s : State) :
    OnlyLists s (cancelList h slot s) :=
  (raiseCancelled_records _ _).trans (onlyLists_relisted _ _ _ _)

theorem cancelList_list (h : Head) (slot : SlotId) (s : State) (h' : Head) (slot' : SlotId) :
    (cancelList h slot s).list h' slot' = if h' = h ∧ slot' = slot then [] else s.list h' slot' := by
  rw [cancelList_eq, relisted_list, raiseCancelled_list]

theorem heard_cancelList (h : Head) (slot : SlotId) (s : State) : Heard s (cancelList h slot s) :=
  (heard_raiseCancelled _ _).trans (heard_relisted _ _ _ _)

/-- Every notice after a cancelled list. -/
theorem cancelList_get (h : Head) (slot : SlotId) (s : State) (k : NoticeKey) :
    (cancelList h slot s).notices.get k =
      if ∃ e ∈ s.list h slot, k = .callupRefused e.rule then some (.reason .cancelled)
      else if k = .callupChange h slot ∧ s.list h slot ≠ [] then some (.top none)
      else s.notices.get k := by
  rw [cancelList_eq, relisted_get, raiseCancelled_list, raiseCancelled_get]
  have top : topRule [] ≠ topRule (s.list h slot) ↔ s.list h slot ≠ [] := by
    cases s.list h slot <;> simp [topRule]
  by_cases c : k = .callupChange h slot ∧ s.list h slot ≠ []
  · rw [if_pos ⟨c.1, top.2 c.2⟩, if_neg, if_pos c]
    · rfl
    · rintro ⟨e, -, he⟩
      rw [c.1] at he
      cases he
  · rw [if_neg (fun d => c ⟨d.1, top.1 d.2⟩)]
    split
    · rfl
    · rfl

/-- The lists of the freed slots among `slots`, cancelled in turn. -/
def cancelFreed (h : Head) (old new : Bank) (slots : List SlotId) (s : State) : State :=
  slots.foldl (fun t slot =>
    match callupMessage (old.slots.get slot) (new.slots.get slot) with
    | .none => t
    | .keep => t
    | .cancel => cancelList h slot t) s

theorem cancelFreed_cons (h : Head) (old new : Bank) (slot : SlotId) (l : List SlotId) (s : State) :
    cancelFreed h old new (slot :: l) s = cancelFreed h old new l
      (if freed (old.slots.get slot) (new.slots.get slot) then cancelList h slot s else s) := by
  unfold cancelFreed
  rw [List.foldl_cons]
  congr 1
  cases old.slots.get slot <;> cases new.slots.get slot <;> rfl

theorem cancelFreed_records (h : Head) (old new : Bank) (l : List SlotId) (s : State) :
    OnlyLists s (cancelFreed h old new l s) := by
  induction l generalizing s with
  | nil => rfl
  | cons slot l ih =>
      rw [cancelFreed_cons]
      split
      · exact (cancelList_records h slot s).trans (ih _)
      · exact ih s

theorem heard_cancelFreed (h : Head) (old new : Bank) (l : List SlotId) (s : State) :
    Heard s (cancelFreed h old new l s) := by
  induction l generalizing s with
  | nil => exact heard_of_same rfl rfl
  | cons slot l ih =>
      rw [cancelFreed_cons]
      split
      · exact (heard_cancelList h slot s).trans (ih _)
      · exact ih s

theorem cancelFreed_list (h : Head) (old new : Bank) (l : List SlotId) (s : State) (h' : Head)
    (slot' : SlotId) : (cancelFreed h old new l s).list h' slot' =
      if h' = h ∧ slot' ∈ l ∧ freed (old.slots.get slot') (new.slots.get slot') = true then []
      else s.list h' slot' := by
  induction l generalizing s with
  | nil => simp [cancelFreed]
  | cons slot l ih =>
      rw [cancelFreed_cons, ih]
      by_cases e : slot' = slot
      · subst e
        by_cases f : freed (old.slots.get slot') (new.slots.get slot') = true
        · simp only [f, if_true, cancelList_list, List.mem_cons, true_or, and_true]
          split
          · next g => rw [if_pos g.1]
          · rfl
        · simp [f]
      · simp only [List.mem_cons, e, false_or]
        split
        · rfl
        · split
          · rw [cancelList_list, if_neg (fun c => e c.2)]
          · rfl

/-- A CANCELLED notice stays through further cancellations. -/
theorem cancelFreed_refused_stays (h : Head) (old new : Bank) (l : List SlotId) (s : State)
    (n : RuleId) (p : s.notices.get (.callupRefused n) = some (.reason .cancelled)) :
    (cancelFreed h old new l s).notices.get (.callupRefused n) = some (.reason .cancelled) := by
  induction l generalizing s with
  | nil => exact p
  | cons slot l ih =>
      rw [cancelFreed_cons]
      apply ih
      split
      · rw [cancelList_get]
        split
        · rfl
        · rw [if_neg (by simp), p]
      · exact p

/-- A report of an emptied list stays through further cancellations. -/
theorem cancelFreed_change_stays (h : Head) (old new : Bank) (l : List SlotId) (s : State)
    (slot : SlotId) (p : s.notices.get (.callupChange h slot) = some (.top none)) :
    (cancelFreed h old new l s).notices.get (.callupChange h slot) = some (.top none) := by
  induction l generalizing s with
  | nil => exact p
  | cons slot' l ih =>
      rw [cancelFreed_cons]
      apply ih
      split
      · rw [cancelList_get, if_neg (by simp)]
        split
        · rfl
        · exact p
      · exact p

theorem cancelFreed_notices (h : Head) (old new : Bank) (l : List SlotId) (s : State) (slot : SlotId)
    (m : slot ∈ l) (f : freed (old.slots.get slot) (new.slots.get slot) = true) (e : Entry)
    (he : e ∈ s.list h slot) :
    (cancelFreed h old new l s).notices.get (.callupRefused e.rule) = some (.reason .cancelled)
    ∧ (cancelFreed h old new l s).notices.get (.callupChange h slot) = some (.top none) := by
  induction l generalizing s with
  | nil => cases m
  | cons slot' l ih =>
      rw [cancelFreed_cons]
      by_cases c : slot = slot'
      · subst c
        rw [if_pos f]
        refine ⟨cancelFreed_refused_stays _ _ _ _ _ _ ?_, cancelFreed_change_stays _ _ _ _ _ _ ?_⟩
        · rw [cancelList_get, if_pos ⟨e, he, rfl⟩]
        · rw [cancelList_get, if_neg (by simp), if_pos ⟨rfl, List.ne_nil_of_mem he⟩]
      · have m' : slot ∈ l := by
          rcases List.mem_cons.1 m with r | r
          · exact absurd r c
          · exact r
        apply ih _ m'
        split
        · rw [cancelList_list, if_neg (fun d => c d.2)]; exact he
        · exact he

/-- R32: a notice under a key that no CANCEL concerns reads as before. -/
theorem cancelFreed_other (h : Head) (old new : Bank) (l : List SlotId) (s : State) (k : NoticeKey)
    (apart : ∀ slot, freed (old.slots.get slot) (new.slots.get slot) = true → ∀ e ∈ s.list h slot,
      k ≠ .callupRefused e.rule ∧ k ≠ .callupChange h slot) :
    (cancelFreed h old new l s).notices.get k = s.notices.get k := by
  induction l generalizing s with
  | nil => rfl
  | cons slot l ih =>
      rw [cancelFreed_cons]
      split
      · next f =>
          rw [ih]
          · rw [cancelList_get, if_neg, if_neg]
            · rintro ⟨e, ne⟩
              obtain ⟨x, hx⟩ := List.exists_mem_of_ne_nil _ ne
              exact (apart slot f x hx).2 e
            · rintro ⟨e, he, hk⟩
              exact (apart slot f e he).1 hk
          · intro slot' f' e he
            rw [cancelList_list] at he
            split at he
            · cases he
            · exact apart slot' f' e he
      · exact ih s apart

theorem carryOver_eq (h : Head) (old new : Bank) (s : State) : carryOver h old new s =
    cancelFreed h old new (List.finRange 32)
      { s with runtimes := s.runtimes.set h (.ofFn (carriedRuntime s old new h)) } := rfl

theorem heard_carryOver (h : Head) (old new : Bank) (s : State) : Heard s (carryOver h old new s) :=
  (heard_of_same (t := { s with
      runtimes := s.runtimes.set h (.ofFn (carriedRuntime s old new h)) }) rfl rfl).trans
    (carryOver_eq h old new s ▸ heard_cancelFreed h old new (List.finRange 32) _)

theorem carryOver_records (h : Head) (old new : Bank) (s : State) : carryOver h old new s = { s with
    port := (carryOver h old new s).port
    runtimes := s.runtimes.set h (.ofFn (carriedRuntime s old new h))
    lists := (carryOver h old new s).lists
    notices := (carryOver h old new s).notices } :=
  cancelFreed_records h old new (List.finRange 32)
    { s with runtimes := s.runtimes.set h (.ofFn (carriedRuntime s old new h)) }

/-- R104: where a slot of the old LIVE bank binds no tour it has no runtime, so the message of R31
leaves what `runtimeAfter` says. -/
theorem carriedRuntime_eq (s : State) (old new : Bank) (h : Head) (slot : SlotId)
    (idle : (old.slots.get slot).bind (fun o => o.tour) = none → s.runtime h slot = none) :
    carriedRuntime s old new h slot
      = runtimeAfter s h slot (old.slots.get slot) (new.slots.get slot) := by
  unfold carriedRuntime runtimeAfter
  cases ho : old.slots.get slot with
  | none =>
      cases hn : new.slots.get slot with
      | none => simpa [tourMessage] using idle (by rw [ho]; rfl)
      | some t =>
          cases ht : t.tour with
          | none => simpa [tourMessage, ht] using idle (by rw [ho]; rfl)
          | some y => simp [tourMessage, ht, createdRuntime]
  | some o =>
      rw [ho] at idle
      cases hn : new.slots.get slot with
      | none =>
          cases hot : o.tour with
          | none => simpa [tourMessage, hot] using idle (by simp [hot])
          | some x => simp [tourMessage, hot]
      | some t =>
          cases hot : o.tour with
          | none =>
              cases ht : t.tour with
              | none => simpa [tourMessage, hot, ht] using idle (by simp [hot])
              | some y => simp [tourMessage, hot, ht, createdRuntime]
          | some x =>
              cases ht : t.tour with
              | none => simp [tourMessage, hot, ht]
              | some y =>
                  by_cases e : x = y
                  · simp [tourMessage, hot, ht, e]
                  · simp [tourMessage, hot, ht, e, createdRuntime]

/-- R31, R32, R44: all that the application of a bank does. -/
theorem applyBank_spec (h : Head) (new : Bank) (s : State)
    (idle : ∀ slot, ((s.dir h).live.slots.get slot).bind (fun o => o.tour) = none →
      s.runtime h slot = none) :
    applyBank h new s = { s with
        port := (applyBank h new s).port, runtimes := (applyBank h new s).runtimes
        lists := (applyBank h new s).lists, notices := (applyBank h new s).notices
        dirs := s.dirs.set h { s.dir h with live := new }
        heads := s.heads.set h { s.head h with
          view := { (s.head h).view with shown := ((applyBank h new s).head h).view.shown } } }
    ∧ CarriedOver h (s.dir h).live new s (applyBank h new s) ∧ Heard s (applyBank h new s) := by
  obtain ⟨base, same⟩ : ∃ base : State, applyBank h new s = carryOver h (s.dir h).live new base
      ∧ base = { s with
        dirs := s.dirs.set h { s.dir h with live := new }
        heads := s.heads.set h { s.head h with view := (s.head h).view.applied (s.dir h).live new } } :=
    ⟨_, rfl, rfl⟩
  generalize (s.dir h).live = old at *
  obtain ⟨eq, be⟩ := same
  have records := carryOver_records h old new base
  have heard := heard_carryOver h old new base
  have list : ∀ h' slot, (carryOver h old new base).list h' slot =
      if h' = h ∧ slot ∈ List.finRange 32 ∧ freed (old.slots.get slot) (new.slots.get slot) = true
      then [] else s.list h' slot := fun h' slot => by
    rw [carryOver_eq, cancelFreed_list, be]; rfl
  have runtimes : ∀ h' slot, (carryOver h old new base).runtime h' slot =
      if h' = h then carriedRuntime s old new h slot else s.runtime h' slot := fun h' slot => by
    rw [records]
    show ((base.runtimes.set h (.ofFn (carriedRuntime base old new h))).get h').get slot = _
    rw [PerHead.get_set, be]
    split
    · exact Table.get_ofFn _ _
    · rfl
  have notices : ∀ slot, base.list h slot = s.list h slot := fun slot => by rw [be]; rfl
  have set : base.notices = s.notices := by rw [be]
  have head : (carryOver h old new base).head h
      = { s.head h with view := (s.head h).view.applied old new } := by
    rw [records, be]
    exact PerHead.get_set_same _ _ _
  have arrival : (carryOver h old new base).arrival = s.arrival := by rw [records, be]
  rw [eq]
  refine ⟨?_, ⟨fun slot => ?_, fun slot => ?_, fun slot f e he => ?_, fun k apart => ?_, fun slot => ?_,
    fun h' slot ne => ⟨?_, ?_⟩, arrival⟩, ?_⟩
  · rw [head]
    generalize carryOver h old new base = t at records ⊢
    have drawn : t.runtimes = base.runtimes.set h (.ofFn (carriedRuntime base old new h)) := by
      rw [records]
    rw [drawn]
    refine records.trans ?_
    subst be
    rfl
  · rw [runtimes, if_pos rfl, carriedRuntime_eq s old new h slot (idle slot)]
  · rw [list]; simp
  · rw [carryOver_eq]
    exact cancelFreed_notices h old new _ _ slot (List.mem_finRange slot) f e (notices slot ▸ he)
  · rw [carryOver_eq, cancelFreed_other]
    · exact congrArg (fun n => NoticeSet.get n k) set
    · intro slot f e he
      exact apart slot f e (notices slot ▸ he)
  · rw [head]
    show (shownAfter old new (s.head h).view.shown).get slot = _
    rw [shownAfter, Table.get_ofFn]
    cases old.slots.get slot <;> cases new.slots.get slot <;> rfl
  · rw [runtimes, if_neg ne]
  · rw [list, if_neg (fun c => ne c.1)]
  · exact (heard_of_same (by rw [be]) (by rw [be])).trans heard

end Sys2Proof.Machine
end

