-- ==== Sys2Proof/Laws/Callups.lean ====
section
/-! SUPPORT. What a firing, an assertion and a release of an alarm line can do, in the terms of Safety. -/

namespace Sys2Proof.Machine

/-! ### A firing (R130 to R133) -/

theorem insertEntry_placed (e : Entry) (l : List Entry) : insertEntry e l = placed e l := by
  unfold placed
  induction l with
  | nil => rfl
  | cons f l ih =>
      unfold insertEntry
      by_cases h : e.before f = true
      · simp [h]
      · simp [h, ih]

theorem findIdx_absent {n : RuleId} {l : List Entry} (absent : ∀ f ∈ l, f.rule ≠ n) :
    l.findIdx (fun e => decide (e.rule = n)) = l.length :=
  List.findIdx_eq_length_of_false (fun x hx => by simpa using absent x hx)

theorem positionOf_middle {n : RuleId} {front : List Entry} {e : Entry} (back : List Entry)
    (absent : ∀ f ∈ front, f.rule ≠ n) (own : e.rule = n) :
    positionOf n (front ++ e :: back) = front.length := by
  unfold positionOf
  rw [List.findIdx_append, findIdx_absent absent]
  simp [List.findIdx_cons, own]

theorem positionOf_placed {e : Entry} {n : RuleId} (own : e.rule = n) {l : List Entry}
    (absent : ∀ f ∈ l, f.rule ≠ n) : positionOf n (placed e l) = placeOf e l :=
  positionOf_middle _ (fun f hf => absent f ((List.takeWhile_sublist _).subset hf)) own

theorem any_rule_absent {l : List Entry} {n : RuleId} (absent : ∀ f ∈ l, f.rule ≠ n) :
    l.any (fun e => e.rule = n) = false := by
  rw [List.any_eq_false]
  intro x hx
  simpa using absent x hx

theorem fire_noTile {c : FireCause} {n : RuleId} {r : Rule} {s : State}
    (noTile : s.liveTile r.head r.slot = none) : fire c n r s = (s, .noTile) := by
  unfold fire
  rw [noTile]
  rfl

theorem isNone_of_isSome {α : Type} {o : Option α} (h : o.isSome = true) : ¬ o.isNone = true := by
  cases o with
  | none => cases h
  | some a => nofun

theorem fire_full {c : FireCause} {n : RuleId} {r : Rule} {s : State}
    (tile : (s.liveTile r.head r.slot).isSome = true)
    (full : FullAgainst (firedState c r (s.triggerActive r)) n r s) : fire c n r s = (s, .listFull) := by
  unfold fire
  rw [if_neg (isNone_of_isSome tile)]
  dsimp only
  rw [any_rule_absent full.1]
  simp only [Bool.false_eq_true, if_false]
  have none : insertCapped (newEntry (firedState c r (s.triggerActive r)) n r s)
      (s.list r.head r.slot) = .none := by
    unfold insertCapped
    rw [if_neg (by have := full.2.1; unfold Config.listRoom; omega)]
    cases hl : (s.list r.head r.slot).getLast? with
    | none => rfl
    | some last => dsimp only; rw [full.2.2 last hl]; rfl
  unfold newEntry at none
  rw [none]

theorem map_absent {n : RuleId} (st : EntryState) {l : List Entry} (absent : ∀ f ∈ l, f.rule ≠ n) :
    l.map (fun e => if e.rule = n then ({ e with state := st } : Entry) else e) = l := by
  conv => rhs; rw [← List.map_id l]
  exact List.map_congr_left (fun a ha => by simp [absent a ha])

theorem fire_fires {c : FireCause} {n : RuleId} {r : Rule} {s u : State} {p : Nat}
    (tile : (s.liveTile r.head r.slot).isSome = true)
    (f : Fires (firedState c r (s.triggerActive r)) n r s u p) : fire c n r s = (u, .placed p) := by
  unfold fire
  rw [if_neg (isNone_of_isSome tile)]
  cases f with
  | refresh front e back stands own once =>
      have here : (s.list r.head r.slot).any (fun e => e.rule = n) = true := by
        rw [List.any_eq_true]
        exact ⟨e, by rw [stands]; simp, by simp [own]⟩
      have before := fun f hf => once f (List.mem_append_left _ hf)
      dsimp only
      rw [if_pos here, stands, List.map_append, List.map_cons, map_absent _ before,
        map_absent _ (fun f hf => once f (List.mem_append_right _ hf)), if_pos own,
        positionOf_middle back before own]
  | insert absent room =>
      have capped : insertCapped (newEntry (firedState c r (s.triggerActive r)) n r s)
          (s.list r.head r.slot)
          = some (placed (newEntry (firedState c r (s.triggerActive r)) n r s) (s.list r.head r.slot),
              none) := by
        unfold insertCapped
        rw [if_pos (show _ < Config.listRoom from room), insertEntry_placed]
      unfold newEntry at capped
      dsimp only
      rw [any_rule_absent absent]
      simp only [Bool.false_eq_true, if_false]
      rw [capped]
      exact congrArg (fun k => (_, Fired.placed k))
        (positionOf_placed (e := newEntry (firedState c r (s.triggerActive r)) n r s) rfl absent)
  | evict absent keep last full four weaker =>
      have capped : insertCapped (newEntry (firedState c r (s.triggerActive r)) n r s)
          (s.list r.head r.slot)
          = some (placed (newEntry (firedState c r (s.triggerActive r)) n r s) keep, some last) := by
        unfold insertCapped
        rw [full, if_neg (by simp [four, Config.listRoom])]
        simp [weaker, insertEntry_placed]
      unfold newEntry at capped
      dsimp only
      rw [any_rule_absent absent]
      simp only [Bool.false_eq_true, if_false]
      rw [capped]
      exact congrArg (fun k => (_, Fired.placed k))
        (positionOf_placed (e := newEntry (firedState c r (s.triggerActive r)) n r s) rfl
          (fun f hf => absent f (by rw [full]; exact List.mem_append_left _ hf)))

/-! ### An assertion (R119) -/

/-- One rule's turn in an assertion of line `l`. -/
def assertionTurn (l : LineId) (t : State) (n : RuleId) : State :=
  match t.rule n with
  | some r => if r.line = some l then fireByLine n r t else t
  | none => t

theorem assertionTurn_hears (l : LineId) (n : RuleId) (s : State) :
    HearsAssertion l n s (assertionTurn l s n) := by
  unfold assertionTurn
  refine ⟨fun other => ?_, fun r hr hl => ?_⟩
  · cases hr : s.rule n with
    | none => rfl
    | some r => dsimp only; rw [if_neg (other r hr)]
  · have asserted : firedState .line r (s.triggerActive r) = .asserted := by simp [firedState]
    rw [hr]
    dsimp only
    rw [if_pos hl]
    unfold fireByLine
    refine ⟨fun noTile => ?_, fun tile full => ?_, fun tile v p f => ?_⟩
    · rw [fire_noTile noTile]
    · rw [fire_full (c := .line) tile (by rw [asserted]; exact full)]
    · rw [fire_fires (c := .line) (u := v) (p := p) tile (by rw [asserted]; exact f)]

/-- R119: an assertion of line `l` is heard by C0 to C31 in turn. -/
theorem lineAsserts_asserted (l : LineId) (s : State) : Asserted l s (lineAsserts l s) := by
  obtain ⟨f, first, last, turn⟩ := foldl_finRange_chain 32 (assertionTurn l) s
  exact ⟨f, first, last, fun n => by rw [turn n]; exact assertionTurn_hears l n _⟩

/-! ### A release (R135) -/

/-- One rule's turn in a release of line `l`. -/
def releaseTurn (l : LineId) (t : State) (n : RuleId) : State :=
  match t.rule n with
  | some r =>
      if r.line = some l then t.relisted r.head r.slot (releasedList n r (t.list r.head r.slot)) else t
  | none => t

theorem lineReleases_eq (l : LineId) (s : State) :
    lineReleases l s = (List.finRange 32).foldl (releaseTurn l) s := rfl

theorem releaseTurn_records (l : LineId) (n : RuleId) (s : State) : OnlyLists s (releaseTurn l s n) := by
  unfold releaseTurn
  split
  · split
    · exact onlyLists_relisted _ _ _ _
    · rfl
  · rfl

theorem releaseTurn_heard (l : LineId) (n : RuleId) (s : State) : State.Heard s (releaseTurn l s n) := by
  unfold releaseTurn
  split
  · split
    · exact heard_relisted _ _ _ _
    · exact State.heard_of_same rfl rfl
  · exact State.heard_of_same rfl rfl

theorem releaseTurn_rule (l : LineId) (n : RuleId) (s : State) (m : RuleId) :
    (releaseTurn l s n).rule m = s.rule m := by
  rw [releaseTurn_records l n s]
  rfl

theorem releasedEntry_rule {s : State} {l : LineId} {h : Head} {slot : SlotId} {e e' : Entry}
    (x : releasedEntry s l h slot e = some e') : e'.rule = e.rule := by
  unfold releasedEntry at x
  split at x
  · split at x
    · split at x
      · cases x; rfl
      · split at x
        · cases x
        · cases x; rfl
    · cases x; rfl
  · cases x; rfl

/-- A rule's turn changes that rule's entries and no other. -/
theorem releaseTurn_list (l : LineId) (n : RuleId) (s : State) (h : Head) (slot : SlotId) :
    (releaseTurn l s n).list h slot = (s.list h slot).filterMap (fun e =>
      if e.rule = n then releasedEntry s l h slot e else some e) := by
  have keep : ∀ (p : Entry → Option Entry), (∀ e, p e = some e) →
      s.list h slot = (s.list h slot).filterMap p := by
    intro p all
    conv => lhs; rw [← List.filterMap_some (l := s.list h slot)]
    exact List.filterMap_congr (fun e _ => (all e).symm)
  unfold releaseTurn
  cases hr : s.rule n with
  | none =>
      refine keep _ (fun e => ?_)
      split
      · next hn => unfold releasedEntry; rw [hn, hr]
      · rfl
  | some r =>
      dsimp only
      by_cases hl : r.line = some l
      · rw [if_pos hl, relisted_list]
        by_cases here : h = r.head ∧ slot = r.slot
        · rw [if_pos here, ← here.1, ← here.2]
          unfold releasedList
          refine List.filterMap_congr (fun e _ => ?_)
          by_cases hn : e.rule = n
          · rw [if_pos hn]
            unfold releasedEntry
            rw [hn, hr]
            dsimp only
            by_cases ha : e.state = .asserted
            · rw [if_pos ⟨rfl, ha⟩, if_pos ⟨hl, here.1.symm, here.2.symm, ha⟩]
              unfold releasedState
              split_ifs <;> rfl
            · rw [if_neg (fun c => ha c.2), if_neg (fun c => ha c.2.2.2)]
          · rw [if_neg hn, if_neg (fun c => hn c.1)]
        · rw [if_neg here]
          refine keep _ (fun e => ?_)
          split
          · next hn =>
              unfold releasedEntry
              rw [hn, hr]
              dsimp only
              rw [if_neg (fun c => here ⟨c.2.1.symm, c.2.2.1.symm⟩)]
          · rfl
      · rw [if_neg hl]
        refine keep _ (fun e => ?_)
        split
        · next hn =>
            unfold releasedEntry
            rw [hn, hr]
            dsimp only
            rw [if_neg (fun c => hl c.1)]
        · rfl

/-- The turns of some rules, each once: their entries change. -/
theorem releaseTurns_list (l : LineId) (ns : List RuleId) (once : ns.Nodup) (s : State) (h : Head)
    (slot : SlotId) : (ns.foldl (releaseTurn l) s).list h slot = (s.list h slot).filterMap (fun e =>
      if e.rule ∈ ns then releasedEntry s l h slot e else some e) := by
  induction ns generalizing s with
  | nil => simp
  | cons n ns ih =>
      obtain ⟨fresh, once⟩ := List.nodup_cons.1 once
      rw [List.foldl_cons, ih once, releaseTurn_list, List.filterMap_filterMap]
      refine List.filterMap_congr (fun e _ => ?_)
      have same : ∀ e, releasedEntry (releaseTurn l s n) l h slot e = releasedEntry s l h slot e := by
        intro e
        unfold releasedEntry
        rw [releaseTurn_rule]
      simp only [same]
      by_cases hn : e.rule = n
      · rw [if_pos hn, if_pos (by rw [hn]; exact List.mem_cons_self)]
        cases x : releasedEntry s l h slot e with
        | none => rfl
        | some e' =>
            have : e'.rule ∉ ns := by rw [releasedEntry_rule x, hn]; exact fresh
            simp [this]
      · rw [if_neg hn]
        simp [hn]

theorem topRule_eq_head (l : List Entry) : topRule l = (l.map Entry.rule).head? := by
  cases l <;> rfl

theorem filterMap_rules_sublist {f : Entry → Option Entry} (kept : ∀ e e', f e = some e' → e'.rule = e.rule)
    (l : List Entry) : ((l.filterMap f).map Entry.rule).Sublist (l.map Entry.rule) := by
  induction l with
  | nil => exact List.Sublist.refl _
  | cons e l ih =>
      cases x : f e with
      | none => rw [List.filterMap_cons_none x]; exact ih.cons _
      | some e' =>
          rw [List.filterMap_cons_some x, List.map_cons, List.map_cons, kept e e' x]
          exact ih.cons_cons _

/-- In a list without repetitions, an entry that has left the top does not come back to it. -/
theorem head_of_sublists {α : Type} {a b c : List α} (ab : a.Sublist b) (bc : b.Sublist c) (once : c.Nodup)
    (top : a.head? = c.head?) : b.head? = c.head? := by
  cases c with
  | nil => rw [List.sublist_nil.1 bc]
  | cons x c =>
      cases bc with
      | cons _ sub =>
          have mem : x ∈ a := List.mem_of_mem_head? top
          exact absurd (sub.subset (ab.subset mem)) (List.nodup_cons.1 once).1
      | cons_cons _ _ => rfl

/-- R138: what a state reports of the tops that have changed since `s`. -/
def ReportsTops (s t : State) : Prop :=
  (∀ h slot, t.notices.get (.callupChange h slot) =
    if topRule (t.list h slot) = topRule (s.list h slot) then s.notices.get (.callupChange h slot)
    else some (.top (topRule (t.list h slot))))
  ∧ ∀ k, (∀ h slot, k ≠ .callupChange h slot) → t.notices.get k = s.notices.get k

theorem relisted_reportsTops (s : State) (h : Head) (slot : SlotId) (l : List Entry) :
    ReportsTops s (s.relisted h slot l) := by
  refine ⟨fun h' slot' => ?_, fun k other => ?_⟩
  · rw [relisted_get, relisted_list]
    by_cases here : h' = h ∧ slot' = slot
    · obtain ⟨rfl, rfl⟩ := here
      by_cases top : topRule l = topRule (s.list h' slot') <;> simp [top]
    · rw [if_neg (fun c => here (by cases c.1; exact ⟨rfl, rfl⟩)), if_neg here, if_pos rfl]
  · rw [relisted_get, if_neg (fun c => other _ _ c.1)]

theorem releaseTurn_reportsTops (l : LineId) (n : RuleId) (s : State) :
    ReportsTops s (releaseTurn l s n) := by
  have same : ReportsTops s s := ⟨fun _ _ => (if_pos rfl).symm, fun _ _ => rfl⟩
  unfold releaseTurn
  cases s.rule n with
  | none => exact same
  | some r =>
      show ReportsTops s (if r.line = some l then _ else s)
      split
      · exact relisted_reportsTops _ _ _ _
      · exact same

theorem releaseTurns_notices (l : LineId) (ns : List RuleId) (s : State) :
    (∀ h slot, ((s.list h slot).map Entry.rule).Nodup →
      (ns.foldl (releaseTurn l) s).notices.get (.callupChange h slot) =
        if topRule ((ns.foldl (releaseTurn l) s).list h slot) = topRule (s.list h slot)
        then s.notices.get (.callupChange h slot)
        else some (.top (topRule ((ns.foldl (releaseTurn l) s).list h slot))))
    ∧ (∀ k, (∀ h slot, k ≠ .callupChange h slot) →
      (ns.foldl (releaseTurn l) s).notices.get k = s.notices.get k)
    ∧ ∀ h slot, (((ns.foldl (releaseTurn l) s).list h slot).map Entry.rule).Sublist
      ((s.list h slot).map Entry.rule) := by
  induction ns generalizing s with
  | nil => exact ⟨fun _ _ _ => (if_pos rfl).symm, fun _ _ => rfl, fun _ _ => List.Sublist.refl _⟩
  | cons n ns ih =>
      obtain ⟨tops, others, subs⟩ := ih (releaseTurn l s n)
      obtain ⟨top, other⟩ := releaseTurn_reportsTops l n s
      have sub : ∀ h slot, (((releaseTurn l s n).list h slot).map Entry.rule).Sublist
          ((s.list h slot).map Entry.rule) := by
        intro h slot
        rw [releaseTurn_list]
        refine filterMap_rules_sublist (fun e e' x => ?_) _
        split at x
        · exact releasedEntry_rule x
        · cases x; rfl
      refine ⟨fun h slot once => ?_, fun k hk => (others k hk).trans (other k hk),
        fun h slot => (subs h slot).trans (sub h slot)⟩
      rw [List.foldl_cons, tops h slot (once.sublist (sub h slot)), top h slot]
      by_cases same : topRule ((releaseTurn l s n).list h slot) = topRule (s.list h slot)
      · rw [if_pos same, same]
      · rw [if_neg same]
        by_cases back : topRule ((ns.foldl (releaseTurn l) (releaseTurn l s n)).list h slot)
            = topRule (s.list h slot)
        · rw [topRule_eq_head, topRule_eq_head] at same back
          exact absurd (head_of_sublists (subs h slot) (sub h slot) once back) same
        · rw [if_neg back]
          split
          · next stays => rw [stays]
          · rfl

/-- R135, R138: what a release of line `l` leaves. -/
theorem lineReleases_released (l : LineId) (s : State) : Released l s (lineReleases l s) := by
  have records : OnlyLists s (lineReleases l s) ∧ State.Heard s (lineReleases l s) := by
    rw [lineReleases_eq]
    generalize List.finRange 32 = ns
    induction ns generalizing s with
    | nil => exact ⟨rfl, State.heard_of_same rfl rfl⟩
    | cons n ns ih =>
        exact ⟨(releaseTurn_records l n s).trans (ih _).1, (releaseTurn_heard l n s).trans (ih _).2⟩
  obtain ⟨tops, others, _⟩ := releaseTurns_notices l (List.finRange 32) s
  refine ⟨records.1, fun h slot => ?_, fun ok h slot => tops h slot (ok h slot).2.1, others,
    records.2.1, records.2.2.1⟩
  rw [lineReleases_eq, releaseTurns_list _ _ (List.nodup_finRange 32)]
  exact List.filterMap_congr (fun e _ => if_pos (List.mem_finRange _))

end Sys2Proof.Machine
end

