-- ==== Sys2Proof/Laws/Lines.lean ====
section
/-! SUPPORT. What a comparison, a sample and a millisecond can do to the alarm lines, in the terms of
Safety. -/

namespace Sys2Proof.Machine

theorem asserted_eq (r : LineRecord) : r.asserted = activeLevel r.polarity r.rawHigh := by
  unfold LineRecord.asserted activeLevel
  cases r.polarity <;> rfl

/-- R118: the comparison, row by row of its table. -/
theorem lineCompares_spec (l : LineId) (s : State) :
    let active := activeLevel (s.line l).polarity (s.line l).rawHigh
    let u := s.setLine l { s.line l with timer := none, state := if active then .active else .idle }
    ((s.line l).state = .idle → active = false → lineCompares l s = u)
    ∧ ((s.line l).state = .active → active = true → lineCompares l s = u)
    ∧ ((s.line l).state = .active → active = false → Released l u (lineCompares l s))
    ∧ ((s.line l).state = .idle → active = true → Asserted l u (lineCompares l s)) := by
  dsimp only
  unfold lineCompares
  dsimp only
  rw [asserted_eq]
  refine ⟨fun st a => ?_, fun st a => ?_, fun st a => ?_, fun st a => ?_⟩ <;> rw [st, a]
  · rfl
  · rfl
  · exact lineReleases_released l _
  · exact lineAsserts_asserted l _

theorem startDebounce_counts (l : LineId) (s : State) (d : (s.line l).debounce ≠ 0) :
    startDebounce l s = s.setLine l { s.line l with timer := some ((s.line l).debounce * 10) } := if_neg d

theorem startDebounce_at_once (l : LineId) (s : State) (d : (s.line l).debounce = 0) :
    startDebounce l s = lineCompares l s := if_pos d

/-- The comparison stops the timer, whatever it held. -/
theorem lineCompares_timer (l : LineId) (s : State) (timer : Option Nat) :
    lineCompares l (s.setLine l { s.line l with timer }) = lineCompares l s := by
  have same : ∀ r' : LineRecord, (s.setLine l { s.line l with timer }).setLine l r' = s.setLine l r' :=
    State.setLine_twice s l _
  unfold lineCompares
  simp only [State.setLine_line_same, same]
  rfl

/-- R116, R117: what a sample can do. -/
theorem takeSample_samples (l : LineId) (s : State) : Samples l s (takeSample l s) := by
  unfold takeSample
  dsimp only
  refine ⟨fun same => if_pos same, fun other off => ?_, fun other on d => ?_, fun other on d => ?_⟩
  all_goals rw [if_neg other]
  · rw [if_neg (by rw [off]; decide)]
  · rw [if_pos on, startDebounce_counts _ _ (by rw [State.setLine_line_same]; exact d),
      State.setLine_line_same, State.setLine_twice]
  · rw [if_pos on, startDebounce_at_once _ _ (by rw [State.setLine_line_same]; exact d)]
    show Host.Outcome.next _ = Host.Outcome.next _
    congr 1
    rw [if_pos (by rw [State.setLine_line_same]; exact ⟨on, rfl⟩)]
    have := lineCompares_timer l
      (s.setLine l { s.line l with rawHigh := (s.line l).pinHigh }) (some 0)
    rw [State.setLine_line_same, State.setLine_twice] at this
    exact this

/-- R116: what the end of a millisecond can do. -/
theorem endMillisecond_ends (l : LineId) (s : State) : EndsMillisecond l s (endMillisecond l s) := by
  unfold endMillisecond
  dsimp only
  refine ⟨fun taken => if_pos taken, fun due => ?_⟩
  rw [if_neg (by rw [due]; decide)]
  exact takeSample_samples l _

/-- R116: where the pin holds the level of the sample before, the end of the millisecond is no event. -/
theorem endMillisecond_quiet {l : LineId} {s : State} (quiet : (s.line l).pinHigh = (s.line l).rawHigh) :
    endMillisecond l s = s.setLine l { s.line l with sampled := false } := by
  unfold endMillisecond takeSample
  simp only [State.setLine_line_same, if_pos quiet, ite_self]

/-- R116: the millisecond ends without an event on any line. -/
theorem millisecond_quiet (ls : List LineId) (s : State)
    (quiet : ∀ l, (s.line l).pinHigh = (s.line l).rawHigh) :
    ls.foldl (fun t l => endMillisecond l t) s
      = { s with lines := (ls.foldl (fun t l => endMillisecond l t) s).lines }
    ∧ ∀ l, (ls.foldl (fun t l => endMillisecond l t) s).line l
      = if l ∈ ls then { s.line l with sampled := false } else s.line l := by
  induction ls generalizing s with
  | nil => exact ⟨rfl, fun l => rfl⟩
  | cons k ls ih =>
      have line : ∀ l, (endMillisecond k s).line l
          = if l = k then { s.line l with sampled := false } else s.line l := by
        intro l
        rw [endMillisecond_quiet (quiet k)]
        by_cases e : l = k
        · subst e; simp
        · rw [State.setLine_line, if_neg e, if_neg e]
      obtain ⟨frame, lines⟩ := ih (endMillisecond k s) (fun l => by
        rw [line l]; split <;> exact quiet l)
      rw [List.foldl_cons]
      refine ⟨?_, fun l => ?_⟩
      · conv => lhs; rw [frame]
        rw [endMillisecond_quiet (quiet k)]
        rfl
      · rw [lines l, line l]
        by_cases e : l = k <;> by_cases m : l ∈ ls <;> simp [e, m]

/-- The millisecond: the timers count down, then AL0 to AL15 end it in turn. -/
theorem tick_chain (s : State) : ∃ f : Fin 17 → State, f 0 = countDown s ∧ f (Fin.last 16) = tick s
    ∧ ∀ l : LineId, EndsMillisecond l (f l.castSucc) (f l.succ) := by
  obtain ⟨f, first, last, turn⟩ := foldl_finRange_chain 16 (fun t l => endMillisecond l t) (countDown s)
  exact ⟨f, first, last, fun l => by rw [turn l]; exact endMillisecond_ends l _⟩

end Sys2Proof.Machine
end

