-- ==== Sys2Proof/Laws/Memory.lean ====
section
/-! SUPPORT. The SDRAM: a read after a write, and the canonical form kept by every memory operation. -/

namespace Sys2Proof.Machine

namespace Memory

/-- Every cell lies above the bound. -/
theorem read_below {m : Memory} {l a : Nat} (wf : wfAbove (some l) m = true) (h : a ≤ l) :
    read m a = blank := by
  induction m generalizing l with
  | nil => rfl
  | cons c m ih =>
      obtain ⟨k, v⟩ := c
      simp only [wfAbove, Bool.and_eq_true, decide_eq_true_eq] at wf
      rw [read, if_neg (by omega), ih wf.2 (by omega)]

/-- A read after a write: the byte written at its address, every other byte as before. -/
theorem read_write {m : Memory} {lo : Option Nat} (wf : wfAbove lo m = true) (a x : Nat) (b : Byte) :
    read (write m a b) x = if x = a then b else read m x := by
  induction m generalizing lo with
  | nil =>
      by_cases hb : b = blank
      · simp only [write, if_pos hb, read]; split <;> simp_all
      · simp only [write, if_neg hb, read]
        by_cases hx : x = a
        · rw [if_pos hx, if_pos hx.symm]
        · rw [if_neg hx, if_neg (Ne.symm hx)]
  | cons c m ih =>
      obtain ⟨k, v⟩ := c
      simp only [wfAbove, Bool.and_eq_true, decide_eq_true_eq] at wf
      have low : ∀ y, y ≤ k → read m y = blank := fun y hy => read_below wf.2 hy
      by_cases h1 : a < k
      · by_cases hb : b = blank
        · by_cases hx : x = a
          · subst hx
            simp only [write, if_pos h1, if_pos hb, read, if_true]
            rw [if_neg (by omega), low _ (by omega), hb]
          · simp [write, h1, hb, hx]
        · by_cases hx : x = a
          · subst hx; simp [write, h1, hb, read]
          · simp only [write, if_pos h1, if_neg hb, read, if_neg hx]
            rw [if_neg (Ne.symm hx)]
      · by_cases h2 : a = k
        · subst h2
          by_cases hb : b = blank
          · by_cases hx : x = a
            · subst hx; simp [write, hb, low _ (Nat.le_refl x)]
            · simp only [write, if_neg h1, if_pos hb, read, if_neg hx, if_true]
              rw [if_neg (Ne.symm hx)]
          · by_cases hx : x = a
            · subst hx; simp [write, hb, read]
            · simp only [write, if_neg h1, if_neg hb, read, if_neg hx, if_true]
              rw [if_neg (Ne.symm hx), if_neg (Ne.symm hx)]
        · simp only [write, if_neg h1, if_neg h2, read]
          by_cases hx : k = x
          · subst hx; rw [if_pos rfl, if_neg (Ne.symm h2), if_pos rfl]
          · rw [if_neg hx, if_neg hx, ih wf.2]

/-- A lower bound on the cells stays one, if the byte is written above it. -/
theorem wfAbove_write {m : Memory} {lo : Option Nat} (wf : wfAbove lo m = true) (a : Nat) (b : Byte)
    (above : ∀ l, lo = some l → l < a) : wfAbove lo (write m a b) = true := by
  induction m generalizing lo with
  | nil => cases lo <;> by_cases hb : b = blank <;> simp_all [write, wfAbove]
  | cons c m ih =>
      obtain ⟨k, v⟩ := c
      have weaker : ∀ {l : Nat}, l < k → wfAbove (some k) m = true → wfAbove (some l) m = true := by
        intro l hl hm
        cases m with
        | nil => rfl
        | cons c m =>
            simp only [wfAbove, Bool.and_eq_true, decide_eq_true_eq] at hm ⊢
            exact ⟨⟨Nat.lt_trans hl hm.1.1, hm.1.2⟩, hm.2⟩
      have start : wfAbove (some k) m = true → wfAbove none m = true := by
        intro hm
        cases m with
        | nil => rfl
        | cons c m =>
            simp only [wfAbove, Bool.and_eq_true, decide_eq_true_eq] at hm ⊢
            exact ⟨⟨trivial, hm.1.2⟩, hm.2⟩
      have tail : wfAbove (some k) m = true := by
        simp only [wfAbove, Bool.and_eq_true] at wf; exact wf.2
      by_cases h1 : a < k
      · by_cases hb : b = blank
        · simp only [write, if_pos h1, if_pos hb]; exact wf
        · cases lo <;> simp_all [write, wfAbove]
      · by_cases h2 : a = k
        · subst h2
          by_cases hb : b = blank
          · simp only [write, if_neg h1, if_pos hb, if_true]
            cases lo with
            | none => exact start tail
            | some l => exact weaker (above l rfl) tail
          · cases lo <;> simp_all [write, wfAbove]
        · have rest := ih tail (fun l e => by cases e; omega)
          simp only [write, if_neg h1, if_neg h2]
          cases lo <;> simp_all [wfAbove]

theorem wf_write {m : Memory} (h : wf m = true) (a : Nat) (b : Byte) : wf (write m a b) = true :=
  wfAbove_write h a b (fun _ e => nomatch e)

theorem wf_writeBytes {m : Memory} (h : wf m = true) (a : Nat) (bs : List Byte) :
    wf (writeBytes m a bs) = true := by
  induction bs generalizing m a with
  | nil => exact h
  | cons b bs ih => exact ih (wf_write h a b) (a + 1)

/-- Reading after bytes are stored from `a`. -/
theorem read_writeBytes {m : Memory} (h : wf m = true) (a x : Nat) (bs : List Byte) :
    read (writeBytes m a bs) x
      = if a ≤ x ∧ x < a + bs.length then bs.getD (x - a) 0 else read m x := by
  induction bs generalizing m a with
  | nil => rw [if_neg (by simp)]; rfl
  | cons b bs ih =>
      rw [writeBytes, ih (wf_write h a b), read_write h, List.length_cons]
      by_cases hx : x = a
      · subst hx; rw [if_neg (by omega), if_pos rfl, if_pos (by omega)]; simp
      · by_cases hr : a + 1 ≤ x ∧ x < a + 1 + bs.length
        · obtain ⟨k, hk⟩ : ∃ k, x - a = k + 1 := ⟨x - a - 1, by omega⟩
          rw [if_pos hr, if_pos (by omega), hk, show x - (a + 1) = k by omega]; simp
        · rw [if_neg hr, if_neg hx, if_neg (by omega)]

theorem writeBytes_nil (m : Memory) (a : Nat) : writeBytes m a [] = m := rfl

/-- Storing two runs of bytes, one after the other. -/
theorem writeBytes_append (m : Memory) (a : Nat) (xs ys : List Byte) :
    writeBytes m a (xs ++ ys) = writeBytes (writeBytes m a xs) (a + xs.length) ys := by
  induction xs generalizing m a with
  | nil => rfl
  | cons b bs ih =>
      rw [List.cons_append, writeBytes, ih, writeBytes, List.length_cons,
        show a + 1 + bs.length = a + (bs.length + 1) by omega]

end Memory

theorem wf_storeLine {m : Memory} (h : Memory.wf m = true) (a hStart : Nat) (bytes : List Byte) :
    Memory.wf (storeLine m a hStart bytes) = true :=
  Memory.wf_writeBytes (Memory.wf_writeBytes h _ _) _ _

theorem wf_storeActiveLine (i : SourceId) (top : Bool) (k : Nat) (bytes : List Byte) {s : State}
    (h : Memory.wf s.store = true) : Memory.wf (storeActiveLine i top k bytes s).store = true := by
  unfold storeActiveLine
  split
  · split
    · exact wf_storeLine h _ _ _
    · exact h
  · exact h

theorem wf_fillField (i : SourceId) (top : Bool) (k : Nat) {s : State}
    (h : Memory.wf s.store = true) : Memory.wf (fillField i top k s).store = true := by
  unfold fillField
  split
  · show Memory.wf (List.foldl _ s.store _) = true
    generalize s.store = m at h ⊢
    generalize List.range' _ _ = l
    induction l generalizing m with
    | nil => exact h
    | cons n l ih => rw [List.foldl_cons]; exact ih _ (Memory.wf_writeBytes h _ _)
  · exact h

/-- R64: black is chroma 128 and luma 16, byte by byte. -/
theorem blackBytes_eq (n : Nat) : ∀ k, (blackBytes (2 * n)).getD k 0
    = if k < 2 * n then (if k % 2 = 0 then 128 else 16) else 0 := by
  unfold blackBytes
  rw [show 2 * n / 2 = n by omega]
  induction n with
  | zero => intro k; simp
  | succ n ih =>
      intro k
      rw [List.replicate_succ, List.flatten_cons]
      match k with
      | 0 => simp
      | 1 => simp; omega
      | k + 2 =>
          have := ih k
          simp only [List.cons_append, List.nil_append, List.getD_cons_succ] at this ⊢
          rw [this]
          by_cases hk : k < 2 * n
          · rw [if_pos hk, show (k + 2) % 2 = k % 2 by omega]
            exact (if_pos (show k + 2 < 2 * (n + 1) by omega)).symm
          · rw [if_neg hk]
            exact (if_neg (show ¬ k + 2 < 2 * (n + 1) by omega)).symm

theorem blackBytes_length (n : Nat) : (blackBytes (2 * n)).length = 2 * n := by
  unfold blackBytes
  rw [show 2 * n / 2 = n by omega]
  induction n with
  | zero => rfl
  | succ n ih => rw [List.replicate_succ, List.flatten_cons, List.length_append, ih]; simp; omega

/-- R82: lines filled with black, each at an even address: what a byte then reads as. -/
theorem read_blackLines {m : Memory} (wf : Memory.wf m = true) (address : Nat → Nat)
    (even : ∀ n, address n % 2 = 0) (ns : List Nat) (x : Nat) :
    Memory.read (ns.foldl (fun m n => Memory.writeBytes m (address n) (blackBytes Config.lineBytes)) m) x
      = if ∃ n ∈ ns, address n ≤ x ∧ x < address n + 1440 then (if x % 2 = 0 then 128 else 16)
        else Memory.read m x := by
  induction ns generalizing m with
  | nil => simp
  | cons n ns ih =>
      have length : (blackBytes Config.lineBytes).length = 1440 := blackBytes_length 720
      rw [List.foldl_cons, ih (Memory.wf_writeBytes wf _ _), Memory.read_writeBytes wf, length]
      by_cases later : ∃ n ∈ ns, address n ≤ x ∧ x < address n + 1440
      · have all : ∃ k ∈ n :: ns, address k ≤ x ∧ x < address k + 1440 := by
          obtain ⟨k, hk, inside⟩ := later
          exact ⟨k, List.mem_cons_of_mem _ hk, inside⟩
        rw [if_pos later, if_pos all]
      · rw [if_neg later]
        by_cases here : address n ≤ x ∧ x < address n + 1440
        · have := even n
          have parity : (x - address n) % 2 = x % 2 := by omega
          have all : ∃ k ∈ n :: ns, address k ≤ x ∧ x < address k + 1440 :=
            ⟨n, List.mem_cons_self, here⟩
          rw [if_pos here, if_pos all]
          refine (blackBytes_eq 720 (x - address n)).trans ?_
          rw [if_pos (by omega), parity]
        · rw [if_neg here, if_neg]
          rintro ⟨k, hk, inside⟩
          rcases List.mem_cons.1 hk with e | hk
          · exact here (e ▸ inside)
          · exact later ⟨k, hk, inside⟩

end Sys2Proof.Machine
end

