-- ==== Sys2Proof/Laws/Operands.lean ====
section
/-! SUPPORT. Operand fields: each parse read back as the code it came from and the range it lies
    in. -/

namespace Sys2Proof.Machine

theorem parseFin_eq {n k : Nat} {x : Fin n} : parseFin n k = some x ↔ k = x.val := by
  unfold parseFin; split
  · simp [Fin.ext_iff]
  · simp; have := x.isLt; omega

theorem parseFin_val {n : Nat} (x : Fin n) : parseFin n x.val = some x := parseFin_eq.2 rfl

theorem parseFin_none {n k : Nat} : parseFin n k = none ↔ n ≤ k := by
  unfold parseFin; split <;> simp <;> omega

theorem parseHead_eq {k : Nat} {x : Head} : parseHead k = some x ↔ k = codeHead x := by
  unfold parseHead; split <;> cases x <;> simp [codeHead] <;> assumption

@[simp] theorem parseHead_code (x : Head) : parseHead (codeHead x) = some x := parseHead_eq.2 rfl

theorem parseHead_range {k x} (h : parseHead k = some x) : k < 2 := by
  rw [parseHead_eq.1 h]; cases x <;> decide

theorem parseFin_range {n k : Nat} {x : Fin n} (h : parseFin n k = some x) : k < n := by
  rw [parseFin_eq.1 h]
  exact x.isLt

theorem parseFinOrNone_eq {n k : Nat} {x : Option (Fin n)} (hn : n ≤ 255) : parseFinOrNone n k =
    some x ↔ k = codeOrNone x := by
  unfold parseFinOrNone
  split
  · cases x with
    | none => simp [codeOrNone, *]
    | some y => simp [codeOrNone]; have := y.isLt; omega
  · cases x with
    | none => simp [codeOrNone, *]
    | some y => simp [codeOrNone, parseFin_eq]

theorem parseFinOrNone_range {n k : Nat} {x : Option (Fin n)} (hn : n ≤ 255) (h : parseFinOrNone n
    k = some x) : namesOrNone n k = true := by
  rw [(parseFinOrNone_eq hn).1 h]; cases x <;> simp [namesOrNone, codeOrNone]

theorem parseYesNo_eq {k x} : parseYesNo k = some x ↔ k = codeYesNo x := by
  unfold parseYesNo; split <;> cases x <;> simp [codeYesNo] <;> assumption

theorem parseYesNo_range {k x} (h : parseYesNo k = some x) : k < 2 := by
  rw [parseYesNo_eq.1 h]
  cases x <;> decide

theorem parseStandard_eq {k x} : parseStandard k = some x ↔ k = codeStandard (some x) := by
  unfold parseStandard; split <;> cases x <;> simp [codeStandard] <;> assumption

theorem parseStandard_range {k x} (h : parseStandard k = some x) : k = 1 ∨ k = 2 := by
  rw [parseStandard_eq.1 h]
  cases x <;> decide

theorem parseExpect_eq {k x} : parseExpect k = some x ↔ k = codeExpect x := by
  unfold parseExpect; rcases x with _ | (_ | _) <;> split <;> simp [codeExpect] <;> assumption

theorem parseExpect_range {k x} (h : parseExpect k = some x) : k < 3 := by
  rw [parseExpect_eq.1 h]
  rcases x with _ | (_ | _) <;> decide

theorem parseLossPolicy_eq {k x} : parseLossPolicy k = some x ↔ k = codeLossPolicy x := by
  unfold parseLossPolicy; split <;> cases x <;> simp [codeLossPolicy] <;> assumption

theorem parseLossPolicy_range {k x} (h : parseLossPolicy k = some x) : k < 3 := by
  rw [parseLossPolicy_eq.1 h]
  cases x <;> decide

theorem parseBank_eq {k x} : parseBank k = some x ↔ k = codeBank x := by
  unfold parseBank; split <;> cases x <;> simp [codeBank] <;> assumption

theorem parseBank_range {k x} (h : parseBank k = some x) : k < 3 := by
  rw [parseBank_eq.1 h]
  cases x <;> decide

theorem parsePolarity_eq {k x} : parsePolarity k = some x ↔ k = codePolarity x := by
  unfold parsePolarity; split <;> cases x <;> simp [codePolarity] <;> assumption

theorem parsePolarity_range {k x} (h : parsePolarity k = some x) : k < 2 := by
  rw [parsePolarity_eq.1 h]
  cases x <;> decide

theorem parseAction_eq {k x} : parseAction k = some x ↔ k = codeAction x := by
  unfold parseAction; split <;> cases x <;> simp [codeAction] <;> assumption

theorem parseAction_range {k x} (h : parseAction k = some x) : k < 4 := by
  rw [parseAction_eq.1 h]
  cases x <;> decide

theorem parseGeometry_range {b x} (h : parseGeometry b = some x) : geometryInRange b = true := by
  unfold parseGeometry at h; split at h
  · unfold geometryInRange; simp only [Bool.and_eq_true, decide_eq_true_eq]; omega
  · cases h

theorem parseGeometry_of_range {b} (h : geometryInRange b = true) : parseGeometry b = some ⟨b.x,
    b.y, b.w, b.h⟩ := by
  unfold geometryInRange at h; simp only [Bool.and_eq_true, decide_eq_true_eq] at h
  unfold parseGeometry; rw [if_pos (by omega)]

theorem parseView_range {b x} (h : parseView b = some x) : viewInRange b = true := by
  unfold parseView at h; split at h
  · unfold viewInRange; simp only [Bool.and_eq_true, decide_eq_true_eq]; omega
  · cases h

theorem parseView_of_range {b} (h : viewInRange b = true) : parseView b = some ⟨b.scale, b.cx,
    b.cy⟩ := by
  unfold viewInRange at h; simp only [Bool.and_eq_true, decide_eq_true_eq] at h
  unfold parseView; rw [if_pos (by omega)]

theorem parseStyle_fields {b x} (h : parseStyle b = some x) : styleInRange b = true ∧
    b.borderWidth = x.borderWidth ∧ b.borderColour = x.borderColour.val ∧ b.lossPolicy =
    codeLossPolicy x.lossPolicy ∧ b.lossColour = x.lossColour.val := by
  unfold parseStyle at h; split at h
  · next h1 h2 h3 =>
    split at h
    · next hw => 
      cases h
      have := parseFin_range h1; have := parseFin_range h3; have := parseLossPolicy_range h2
      unfold styleInRange
      refine ⟨?_, rfl, parseFin_eq.1 h1, parseLossPolicy_eq.1 h2, parseFin_eq.1 h3⟩
      simp [*]
    · cases h
  · cases h

theorem parseStyle_of_range {b} (h : styleInRange b = true) : ∃ x, parseStyle b = some x := by
  unfold styleInRange at h; simp at h
  unfold parseStyle
  obtain ⟨⟨⟨hw, h1⟩, h2⟩, h3⟩ := h
  have e1 := parseFin_val (⟨_, h1⟩ : Fin 16)
  have e3 := parseFin_val (⟨_, h3⟩ : Fin 16)
  simp only at e1 e3
  rw [e1, e3]
  have : b.lossPolicy = 0 ∨ b.lossPolicy = 1 ∨ b.lossPolicy = 2 := by omega
  rcases this with h | h | h <;> rw [h] <;> simp only [parseLossPolicy] <;> rw [if_pos hw] <;>
      exact ⟨_, rfl⟩

theorem parseTile_range {b t} (h : parseTile b = some t) : tileInRange b = true := by
  unfold parseTile at h; split at h
  · next h1 h2 h3 h4 h5 =>
    unfold tileInRange; simp [parseGeometry_range h1, parseView_range h2, parseFinOrNone_range (by
        decide) h3, parseFinOrNone_range (by decide) h4, (parseStyle_fields h5).1]
  · cases h

theorem parseFinOrNone_of_range {n k : Nat} (h : namesOrNone n k = true) : ∃ x, parseFinOrNone n k
    = some x := by
  unfold namesOrNone at h; simp at h
  unfold parseFinOrNone
  split
  · exact ⟨_, rfl⟩
  · have hk : k < n := by omega
    rw [parseFin_val (⟨k, hk⟩ : Fin n)]; exact ⟨_, rfl⟩

theorem style_ext {x y : Style} (h1 : x.borderWidth = y.borderWidth) (h2 : x.borderColour.val =
    y.borderColour.val) (h3 : codeLossPolicy x.lossPolicy = codeLossPolicy y.lossPolicy) (h4 :
    x.lossColour.val = y.lossColour.val) : x = y := by
  obtain ⟨a,b,c,d⟩ := x; obtain ⟨a',b',c',d'⟩ := y
  simp only at *
  have : c = c' := by cases c <;> cases c' <;> simp [codeLossPolicy] at h3 ⊢
  simp [h1, Fin.ext h2, this, Fin.ext h4]

theorem codeOrNone_inj {n : Nat} (hn : n ≤ 255) {x y : Option (Fin n)} (h : codeOrNone x =
    codeOrNone y) : x = y := by
  have := (parseFinOrNone_eq hn).2 h.symm
  have h2 := (parseFinOrNone_eq hn (x := y)).2 rfl
  have h3 := (parseFinOrNone_eq hn (x := x)).2 rfl
  rw [h] at h3; rw [h2] at h3; exact (Option.some.inj h3).symm

theorem Carries.geometry {b groups t} (c : Carries b groups t) (i : groups.testBit 0 = true) (r :
    geometryInRange b = true) : parseGeometry b = some t.geometry := by
  rw [parseGeometry_of_range r]; obtain ⟨h1,h2,h3,h4⟩ := c.1 i; rw [h1,h2,h3,h4]

theorem Carries.view {b groups t} (c : Carries b groups t) (i : groups.testBit 1 = true) (r :
    viewInRange b = true) : parseView b = some t.view := by
  rw [parseView_of_range r]; obtain ⟨h1,h2,h3⟩ := c.2.1 i; rw [h1,h2,h3]

theorem Carries.source {b groups t} (c : Carries b groups t) (i : groups.testBit 2 = true) :
    parseFinOrNone 16 b.source = some t.source := by
  rw [c.2.2.1 i]; exact (parseFinOrNone_eq (by decide)).2 rfl

theorem Carries.tour {b groups t} (c : Carries b groups t) (i : groups.testBit 3 = true) :
    parseFinOrNone 8 b.tour = some t.tour := by
  rw [c.2.2.2.1 i]; exact (parseFinOrNone_eq (by decide)).2 rfl

theorem Carries.style {b groups t} (c : Carries b groups t) (i : groups.testBit 4 = true) (r :
    styleInRange b = true) : parseStyle b = some t.style := by
  obtain ⟨x, hx⟩ := parseStyle_of_range r
  obtain ⟨_, h1, h2, h3, h4⟩ := parseStyle_fields hx
  obtain ⟨g1, g2, g3, g4⟩ := c.2.2.2.2 i
  rw [hx]; congr 1; apply style_ext <;> simp_all

theorem Carries.tile {b t} (r : tileInRange b = true) (c : Carries b 31 t) : parseTile b = some t
    := by
  unfold tileInRange at r; simp only [Bool.and_eq_true] at r
  unfold parseTile
  rw [Carries.geometry c (by decide) r.1.1.1.1, Carries.view c (by decide) r.1.1.1.2,
      Carries.source c (by decide), Carries.tour c (by decide), Carries.style c (by decide) r.2]

theorem selects_eq_testBit {g k} : selects g k = g.testBit k := by
  unfold selects; rw [Nat.testBit_eq_decide_div_mod_eq]

theorem exists_of_isSome {α} {o : Option α} (h : o.isSome = true) : ∃ x, o = some x :=
    Option.isSome_iff_exists.1 h

theorem groupsOk_eq {g b} : groupsOk g b = (decide (1 ≤ g) && decide (g ≤ 31) && selectedInRange g
    b) := by
  have a1 : (parseGeometry b).isSome = geometryInRange b := by
    rw [Bool.eq_iff_iff]; exact ⟨fun h => parseGeometry_range (exists_of_isSome h).choose_spec,
        fun h => by rw [parseGeometry_of_range h]; rfl⟩
  have a2 : (parseView b).isSome = viewInRange b := by
    rw [Bool.eq_iff_iff]; exact ⟨fun h => parseView_range (exists_of_isSome h).choose_spec, fun h
        => by rw [parseView_of_range h]; rfl⟩
  have a3 : (parseFinOrNone 16 b.source).isSome = namesOrNone 16 b.source := by
    rw [Bool.eq_iff_iff]; exact ⟨fun h => parseFinOrNone_range (by decide) (exists_of_isSome
        h).choose_spec, fun h => by rw [(parseFinOrNone_of_range h).choose_spec]; rfl⟩
  have a4 : (parseFinOrNone 8 b.tour).isSome = namesOrNone 8 b.tour := by
    rw [Bool.eq_iff_iff]; exact ⟨fun h => parseFinOrNone_range (by decide) (exists_of_isSome
        h).choose_spec, fun h => by rw [(parseFinOrNone_of_range h).choose_spec]; rfl⟩
  have a5 : (parseStyle b).isSome = styleInRange b := by
    rw [Bool.eq_iff_iff]; exact ⟨fun h => (parseStyle_fields (exists_of_isSome h).choose_spec).1,
        fun h => by rw [(parseStyle_of_range h).choose_spec]; rfl⟩
  unfold groupsOk selectedInRange
  rw [a1, a2, a3, a4, a5, show decide (g < 32) = decide (g ≤ 31) by congr 1; simp [Nat.lt_succ_iff]]
  simp only [selects_eq_testBit, Bool.and_assoc]

theorem parseMaskKind_range {k p m} (h : parseMaskKind k p = some m) : maskParameterInRange k p =
    true := by
  unfold parseMaskKind at h; split at h
  · simp at h; obtain ⟨a, h1, h2⟩ := h; have := parseFin_range h1; simp [maskParameterInRange, this]
  · split at h
    · simp [maskParameterInRange, *]
    · cases h
  · split at h
    · simp [maskParameterInRange, *]
    · cases h
  · cases h

theorem parseMask_range {a m} (h : parseMask a = some m) : maskParameterInRange a.kind a.parameter
    = true ∧ a.x ≤ 718 ∧ a.x % 2 = 0 ∧ a.y ≤ 575 ∧ 2 ≤ a.w ∧ a.w ≤ 720 ∧ a.w % 2 = 0 ∧ 1 ≤ a.h ∧
    a.h ≤ 576 := by
  unfold parseMask at h; split at h
  · next hk => split at h
               · next hh => exact ⟨parseMaskKind_range hk, hh⟩
               · cases h
  · cases h

theorem parseRule_range {a m} (h : parseRule a = some m) : namesOrNone 16 a.line = true ∧ a.head <
    2 ∧ a.slot < 32 ∧ a.source < 16 ∧ a.priority ≤ 7 ∧ a.hold ≤ 255 ∧ a.latch < 2 := by
  unfold parseRule at h
  split at h
  · next h1 h2 h3 h4 h5 =>
    split at h
    · next hh =>
      exact ⟨parseFinOrNone_range (by decide) h1, parseHead_range h2, parseFin_range h3,
          parseFin_range h4, hh.1, hh.2, parseYesNo_range h5⟩
    · cases h
  · cases h

theorem parseRule_code {n : RuleId} {r : Rule} (p : r.priority ≤ 7) (q : r.hold ≤ 255) : parseRule
    (codeRule n r) = some r := by
  unfold parseRule codeRule
  simp only [(parseFinOrNone_eq (by decide : 16 ≤ 255)).2 rfl, parseHead_code, parseFin_val,
      parseYesNo_eq.2 rfl, p, q, and_self, if_true]

theorem parseMask_code {i : SourceId} {k : MaskId} {m : Mask} (r : m.x ≤ 718 ∧ m.x % 2 = 0 ∧ m.y ≤
    575 ∧ 2 ≤ m.w ∧ m.w ≤ 720 ∧ m.w % 2 = 0 ∧ 1 ≤ m.h ∧ m.h ≤ 576) (p : maskParameterInRange
    (codeMaskKind m.kind).1 (codeMaskKind m.kind).2 = true) : parseMask (codeMask i k m) = some m
    := by
  obtain ⟨x, y, w, h, kind⟩ := m
  unfold parseMask codeMask
  have e : parseMaskKind (codeMaskKind kind).1 (codeMaskKind kind).2 = some kind := by
    cases kind with
    | solid colour => simp [codeMaskKind, parseMaskKind, parseFin_val]
    | mosaic block =>
        simp only [codeMaskKind, parseMaskKind]
        have p : maskParameterInRange 1 block = true := p
        exact if_pos (by simpa [maskParameterInRange] using p)
    | darken shift =>
        simp only [codeMaskKind, parseMaskKind]
        have p : maskParameterInRange 2 shift = true := p
        exact if_pos (by simpa [maskParameterInRange] using p)
  simp only at r ⊢
  rw [e]
  simp only [if_pos r]

theorem parseSteps_range {l : List (Nat × Nat)} {t} (h : parseSteps l = some t) : t.length =
    l.length ∧ ∀ p ∈ l, p.1 < 16 ∧ 1 ≤ p.2 ∧ p.2 ≤ 255 := by
  induction l generalizing t with
  | nil => cases h; simp
  | cons p l ih =>
      rw [parseSteps] at h
      split at h
      · next a b h1 h2 =>
        cases h
        obtain ⟨e, f⟩ := ih h2
        refine ⟨by simp [e], ?_⟩
        intro q hq
        rcases List.mem_cons.1 hq with rfl | hq
        · unfold parseStep at h1
          split at h1
          · next h3 =>
            split at h1
            · next h4 => exact ⟨parseFin_range h3, h4⟩
            · cases h1
          · cases h1
        · exact f q hq
      · cases h

theorem parseSteps_code {l : List TourStep} (h : ∀ st ∈ l, 1 ≤ st.dwell ∧ st.dwell ≤ 255) :
    parseSteps (l.map codeStep) = some l := by
  induction l with
  | nil => rfl
  | cons st l ih =>
      rw [List.map_cons, parseSteps, ih (fun x hx => h x (List.mem_cons_of_mem _ hx))]
      have : parseStep (codeStep st) = some st := by
        unfold parseStep codeStep
        rw [parseFin_val]
        exact if_pos (h st List.mem_cons_self)
      rw [this]

theorem parseTour_range {a : TourArgs} {t : Tour} (h : parseTour a = some t) : a.skipLost < 2 ∧ 1
    ≤ a.count ∧ a.count ≤ 12 ∧ (a.steps.take a.count).length = a.count ∧ ∀ p ∈ a.steps.take
    a.count, p.1 < 16 ∧ 1 ≤ p.2 ∧ p.2 ≤ 255 := by
  unfold parseTour at h
  split at h
  · next h1 h2 =>
    split at h
    · next h3 =>
      have e := parseSteps_range h2
      exact ⟨parseYesNo_range h1, h3.1, h3.2.1, e.1 ▸ h3.2.2, e.2⟩
    · cases h
  · cases h

end Sys2Proof.Machine
end

