-- ==== Sys2Proof/Laws/Port.lean ====
section
/-! SUPPORT. The command port: what `settle` does, and what the fetch and the execution of one ring
command leave of the port, in the terms of Safety. -/

namespace Sys2Proof.Machine

namespace Port

/-- The processor's state after `announce`. -/
def procSettled (p : Port) : ProcState :=
  if p.proc = .idle ∧ p.run = true ∧ p.cmdProducer ≠ p.cmdConsumer then .fetching else p.proc

/-- The path after `grant`, by the processor's state. -/
def pathSettled (p : Port) (proc : ProcState) : Option Transfer :=
  if p.path.isSome = true ∨ proc = .faulted then p.path
  else if p.queue ≠ [] then some .completionWrite
  else if proc = .fetching then some .fetch
  else if proc = .executing ∧ p.query.isSome = true then some .resultWrite
  else none

theorem announce_eq (p : Port) : p.announce = { p with proc := p.procSettled } := by
  unfold announce procSettled; split <;> rfl

theorem grant_eq (p : Port) : p.grant = { p with path := p.pathSettled p.proc } := by
  obtain ⟨_, _, _, _, _, _, _, _, _, _, _, _, _, proc, _, query, path, queue, _, _⟩ := p
  simp only [grant, pathSettled]
  repeat' split
  all_goals first | rfl | simp_all

/-- DRAINED mode raises CPL. -/
def DrainsNow (p : Port) : Prop :=
  p.mode = .drained ∧ p.mark = true ∧ p.queue = [] ∧ p.path ≠ some .completionWrite
  ∧ (p.proc = .stopped ∨ p.proc = .idle ∧ p.cmdProducer = p.cmdConsumer)

theorem drain_of_drainsNow {p : Port} (h : p.DrainsNow) :
    p.drain = { p with cause := { p.cause with cpl := true }, mark := false } := if_pos h

theorem drain_of_not {p : Port} (h : ¬ p.DrainsNow) : p.drain = p := if_neg h

theorem settle_eq (p : Port) :
    p.settle = drain { p with proc := p.procSettled, path := p.pathSettled p.procSettled } := by
  unfold settle; rw [grant_eq, announce_eq]; rfl

end Port

namespace State

theorem hasRoom_fetched (s : State) : (s.setPort s.port.fetched).hasRoom = s.hasRoom := rfl

theorem hasRoom_taken_port (s : State) : s.taken.port = s.port.fetched.took := rfl

end State

theorem arrive_ready {i : Instr} {run : State → State} {s : State} (ready : s.Ready) :
    arrive i run s = (run s.taken).settled := by
  unfold arrive
  rw [if_pos ready.1, State.hasRoom_fetched, if_pos ready.2]

theorem arrive_waits {i : Instr} {run : State → State} {s : State} (f : s.fetchUnderWay = true)
    (full : s.hasRoom = false) : arrive i run s = (s.setPort (s.port.fetched.wait i)).settled := by
  unfold arrive
  rw [if_pos f, State.hasRoom_fetched, full]
  rfl

theorem arrive_idle {i : Instr} {run : State → State} {s : State} (f : s.fetchUnderWay = false) :
    arrive i run s = s := by
  unfold arrive
  rw [f]
  rfl

/-- The port of a fetch under way has the fetch on the path. -/
theorem State.Ready.proc_path {s : State} (ready : s.Ready) :
    s.port.proc = .fetching ∧ s.port.path = some .fetch := by
  have h := ready.1
  simp only [State.fetchUnderWay, Bool.and_eq_true, decide_eq_true_eq] at h
  exact h

/-- The port while a command is carried out: the consumer advanced, nothing held and no query. -/
theorem taken_port (s : State) : s.taken.port = { s.port with
    path := none, cmdConsumer := s.port.consumerAfter, proc := .executing, held := none
    query := none } := rfl

/-- The port at the end of an execution settles into `afterCommand`. -/
theorem settle_atRest (p : Port) (c : Causes) (done : List Completion) :
    Port.settle { p with
      path := none, cmdConsumer := p.consumerAfter, held := none, query := none, cause := c
      queue := p.queue ++ done, mark := true, proc := if p.run then .idle else .stopped }
      = Port.afterCommand { p with cause := c } done := by
  obtain ⟨run, mode, cmdBase, cmdSize, prod, cons, cplBase, cplSize, cplWrite, cplRead, cause,
    enable, fault, proc, held, query, path, queue, mark, lastWrite⟩ := p
  rw [Port.settle_eq]
  generalize hq : queue ++ done = q
  by_cases hp : prod = (cons + 1) % (2 * cmdSize)
  all_goals
    cases run <;> cases mode <;> cases q <;>
    simp_all [Port.afterCommand, Port.consumerAfter, Port.goesOn, Port.drains, Port.procSettled,
      Port.pathSettled, Port.drain]

/-- What a command leaves that is carried out and answered at once: `pre` are the completions its block
sends before its own answer, `c` the causes it has raised. -/
theorem arrive_done {i : Instr} {h : Header} {code : Nat} {block : State → Reply} {s u : State}
    {r : Result} {d : Nat} {pre : List Completion} {c : Causes} {m : Bool} (ready : s.Ready)
    (reply : block s.taken = (u, .done r d))
    (port : u.port = { s.taken.port with queue := s.port.queue ++ pre, cause := c, mark := m }) :
    arrive i (answering h code block) s
      = State.afterCommand { u with port := { s.port with cause := c } }
        (pre ++ answers h code r d) := by
  rw [arrive_ready ready, answering, reply, State.afterCommand, State.settled]
  simp only [State.setPort]
  congr 1
  rw [← settle_atRest]
  congr 1
  rw [port, taken_port]
  simp only [Port.executed, Port.answered, Port.enqueue, answers, Port.atRest]
  split <;> simp

/-- The same for a block that has changed no other record of the part. -/
theorem arrive_refused {i : Instr} {h : Header} {code : Nat} {block : State → Reply} {s : State}
    {r : Result} {d : Nat} (ready : s.Ready) (reply : block s.taken = refuse s.taken r d) :
    arrive i (answering h code block) s = s.afterCommand (answers h code r d) :=
  arrive_done (u := s.taken) (pre := []) (c := s.port.cause) (m := s.port.mark) ready reply
    (by rw [taken_port, List.append_nil])

/-- A deferred command: only what its block sends of other commands joins the queue. -/
theorem arrive_deferred {i : Instr} {h : Header} {code : Nat} {block : State → Reply} {s u : State}
    {pre : List Completion} {c : Causes} {m : Bool} (ready : s.Ready)
    (reply : block s.taken = (u, .deferred))
    (port : u.port = { s.taken.port with queue := s.port.queue ++ pre, cause := c, mark := m }) :
    arrive i (answering h code block) s
      = State.afterCommand { u with port := { s.port with cause := c } } pre := by
  rw [arrive_ready ready, answering, reply, State.afterCommand, State.settled]
  simp only [State.setPort]
  congr 1
  rw [← settle_atRest]
  congr 1
  rw [port, taken_port]
  rfl

/-- A query that has no record to write. -/
theorem arrive_counts {i : Instr} {h : Header} {code : Nat} {block : State → Reply} {s : State}
    {w a : Nat} (ready : s.Ready) (reply : block s.taken = (s.taken, .counts w a)) :
    arrive i (answering h code block) s = s.afterCommand (queryAnswers h code w a) := by
  rw [arrive_ready ready, answering, reply, State.afterCommand, State.settled]
  simp only [State.setPort]
  congr 1
  have e := settle_atRest s.port s.port.cause (queryAnswers h code w a)
  rw [show ({ s.port with cause := s.port.cause } : Port) = s.port from rfl] at e
  rw [← e]
  congr 1
  rw [taken_port]
  simp only [Port.executed, Port.answered, Port.enqueue, queryAnswers, Port.atRest]
  split <;> simp_all

/-- A query that has records to write. -/
theorem arrive_running {i : Instr} {h : Header} {code : Nat} {block : State → Reply} {s : State}
    {q : QueryRun} (ready : s.Ready) (reply : block s.taken = (s.taken, .running q)) :
    arrive i (answering h code block) s = { s with port := { s.port with
      cmdConsumer := s.port.consumerAfter
      held := none
      query := some q
      proc := .executing
      path := if s.port.queue ≠ [] then some .completionWrite else some .resultWrite
      mark := true } } := by
  rw [arrive_ready ready, answering, reply, State.settled]
  simp only [State.setPort, State.taken]
  congr 1
  generalize s.port = p
  obtain ⟨run, mode, cmdBase, cmdSize, prod, cons, cplBase, cplSize, cplWrite, cplRead, cause,
    enable, fault, proc, held, query, path, queue, mark, lastWrite⟩ := p
  rw [Port.settle_eq]
  cases queue <;>
  simp [Port.executed, Port.fetched, Port.took, Port.procSettled, Port.pathSettled, Port.drain,
    Port.consumerAfter, ringNext]

end Sys2Proof.Machine
end

