-- ==== Sys2Proof/Laws/Sources.lean ====
section
/-! SUPPORT. The timing codes an input port recognises in its stream (R62). -/

namespace Sys2Proof.Machine

/-- How much of 255, 0, 0 a match holds, as bytes. -/
def CodeMatch.bytes : CodeMatch → List Byte
  | .none => []
  | .one => [255]
  | .two => [255, 0]
  | .three => [255, 0, 0]

theorem codeFree_of_suffix (front : List Byte) {l : List Byte} (free : codeFree (front ++ l) = true) :
    codeFree l = true := by
  induction front with
  | nil => exact free
  | cons b front ih =>
      rw [List.cons_append, codeFree, Bool.and_eq_true] at free
      exact ih free.2

/-- One more byte of a stream without a code. -/
theorem next_of_codeFree {m : CodeMatch} {b : Byte} {l : List Byte}
    (free : codeFree (m.bytes ++ b :: l) = true) (open' : m ≠ .three) :
    m.next b ≠ .three ∧ codeFree ((m.next b).bytes ++ l) = true := by
  unfold CodeMatch.next
  by_cases start : b = 255
  · subst start
    exact ⟨nofun, codeFree_of_suffix m.bytes free⟩
  rw [if_neg start]
  by_cases zero : b = 0
  · subst zero
    rw [if_pos rfl]
    cases m with
    | none => exact ⟨nofun, codeFree_of_suffix [0] free⟩
    | one => exact ⟨nofun, free⟩
    | two => simp [CodeMatch.bytes, codeFree] at free
    | three => exact absurd rfl open'
  · rw [if_neg zero]
    exact ⟨nofun, codeFree_of_suffix (m.bytes ++ [b]) (by rw [List.append_assoc]; exact free)⟩

/-- R62: the next code of a stream, after bytes that hold none. -/
theorem readCodes_next (bytes : List Byte) (flags : Byte) (more : List Byte) (m : CodeMatch)
    (before : List Byte) (open' : m ≠ .three) (free : codeFree (m.bytes ++ bytes) = true) :
    readCodes m before (bytes ++ 255 :: 0 :: 0 :: flags :: more)
      = (before.reverse ++ bytes, flags) :: readCodes .none [] more := by
  induction bytes generalizing m before with
  | nil =>
      rw [List.nil_append, readCodes, if_neg open']
      have start : m.next 255 = .one := if_pos rfl
      rw [start]
      simp [readCodes, CodeMatch.next]
  | cons b bytes ih =>
      obtain ⟨open'', free'⟩ := next_of_codeFree free open'
      rw [List.cons_append, readCodes, if_neg open', ih _ _ open'' free']
      simp

/-- R62: bytes without a code and the code that ends them are one code. -/
theorem codesIn_of_codeFree {bytes : List Byte} (free : codeFree bytes = true) (flags : Byte) :
    codesIn bytes flags = [(bytes, flags)] :=
  readCodes_next bytes flags [] .none [] nofun free

/-- R62: a code within the bytes is taken first. -/
theorem codesIn_split {bytes : List Byte} (free : codeFree bytes = true) (g : Byte) (rest : List Byte)
    (flags : Byte) :
    codesIn (bytes ++ [255, 0, 0, g] ++ rest) flags = (bytes, g) :: codesIn rest flags := by
  have := readCodes_next bytes g (rest ++ [255, 0, 0, flags]) .none [] nofun free
  simpa [codesIn] using this

end Sys2Proof.Machine
end

