-- ==== Sys2Proof/Tests/Slice0.lean ====
section
/-! SUPPORT. Tests: ill-formed terms that the check refuses, one or two small steps for each command with
the values of the spec's worked examples, and for each statement with hypotheses a state and operands that
meet them. -/

namespace Sys2Proof.Tests
open Sys2Proof Sys2Proof.Machine

/-! ### States and readings -/

/-- Rings of 16 entries, RUN set, the read of one announced command about to complete. -/
def fetching : Port :=
  { Port.reset with run := true, cmdSize := 16, cplSize := 16, cmdProducer := 1
                    proc := .fetching, path := some .fetch }

def ready : State := { State.reset with port := fetching }

/-- The same rings with nothing to fetch. -/
def idle : State :=
  { State.reset with port := { fetching with proc := .idle, path := none, cmdProducer := 0 } }

/-- `s` with the read of a command about to complete. -/
def asked (s : State) : State := s.setPort fetching

def plain : Header := { tag := 7, flags := 0, reservedZero := true }
def quiet : Header := { tag := 7, flags := 1, reservedZero := true }
def unclean : Header := { tag := 7, flags := 0, reservedZero := false }

/-- The state after a command. -/
def after (i : Instr) (s : State) : State :=
  match exec i s with
  | .next t => t
  | .fault _ => s
  | .refused _ => s

/-- The result and detail of the last completion in the queue after a command. -/
def answer (i : Instr) (s : State) : Option (Result × Nat) :=
  (after i s).port.queue.getLast?.map (fun c => (c.result, c.detail))

def tileAt (x y w h scale cx : Nat) (source : Option SourceId) (tour : Option TourId) : Tile :=
  { geometry := ⟨x, y, w, h⟩, view := ⟨scale, cx, 0⟩, source, tour, style := ⟨2, 1, .black, 0⟩ }

/-- A tile as a command carries it (table 12-4a). -/
def blockOf (t : Tile) : TileBlock :=
  { x := t.geometry.x, y := t.geometry.y, w := t.geometry.w, h := t.geometry.h
    scale := t.view.scale, cx := t.view.cx, cy := t.view.cy
    source := codeOrNone t.source, tour := codeOrNone t.tour
    borderWidth := t.style.borderWidth, borderColour := t.style.borderColour.val
    lossPolicy := codeLossPolicy t.style.lossPolicy, lossColour := t.style.lossColour.val }

/-- A bank of the given tiles, topmost first. -/
def bankOf (l : List (SlotId × Tile)) : Bank :=
  { slots := l.foldl (fun t p => t.set p.1 (some p.2)) (.fill 32 none), order := l.map Prod.fst }

/-! ### The check of well-formed terms refuses (WellFormed) -/

theorem test_wf_tag : (Instr.headStop { plain with tag := 65536 } 0).wf = false := by decide
theorem test_wf_flags : (Instr.headStop { plain with flags := 256 } 0).wf = false := by decide
theorem test_wf_operand_byte : (Instr.tileRetire plain 0 256).wf = false := by decide
theorem test_wf_tile_block :
    (Instr.tilePlace plain 0 0 0 { blockOf (tileAt 0 0 720 576 1 0 none none) with x := 65536 }).wf
      = false := by decide
theorem test_wf_tile_byte :
    (Instr.tileModify plain 0 0 1 { blockOf (tileAt 0 0 720 576 1 0 none none) with tour := 256 }).wf
      = false := by decide
theorem test_wf_source_args : (Instr.sourceSet plain ⟨0, 0, 0, 256, 0, 0⟩).wf = false := by decide
theorem test_wf_mask_byte : (Instr.maskSet plain ⟨0, 256, 0, 0, 0, 0, 2, 1⟩).wf = false := by decide
theorem test_wf_mask_half : (Instr.maskSet plain ⟨0, 0, 0, 0, 0, 0, 65536, 1⟩).wf = false := by decide
theorem test_wf_tour_pairs : (Instr.tourSet plain ⟨0, 1, 0, [(0, 1)]⟩).wf = false := by decide
theorem test_wf_tour_byte :
    (Instr.tourSet plain ⟨0, 1, 0, List.replicate 12 (0, 256)⟩).wf = false := by decide
theorem test_wf_rule_args : (Instr.ruleSet plain ⟨0, 0, 0, 0, 0, 0, 256, 0⟩).wf = false := by decide
theorem test_wf_query_buffer :
    (Instr.queryLines plain { buffer := 4294967296, maxCount := 1 }).wf = false := by decide
theorem test_wf_query_count : (Instr.queryLines plain { buffer := 0, maxCount := 256 }).wf = false := by
  decide
theorem test_wf_timeout : (Instr.lockParams plain 4 8 65536).wf = false := by decide
theorem test_wf_known_code : (Instr.badCommand plain 0x10).wf = false := by decide
theorem test_wf_offset : (Instr.registerWrite 4096 15 0).wf = false := by decide
theorem test_wf_offset_word : (Instr.registerWrite 0x011 15 0).wf = false := by decide
theorem test_wf_record_size : (Instr.fetch (List.replicate 31 0)).wf = false := by decide
theorem test_wf_code_in_line : (Instr.timingCode 3 0x80 [1, 255, 0, 0, 0xF1, 2]).wf = false := by decide
theorem test_wf_accepts :
    (Instr.tilePlace plain 0 5 255 (blockOf (tileAt 0 0 720 576 1 0 (some 0) none))).wf = true := by
  decide

/-! ### Records of the command ring (tables 12-2 to 12-4, written byte by byte) -/

/-- TILE_MODIFY, quiet, tag 0x0102, head B, slot 3, groups GEOMETRY and TOUR, x 264. -/
theorem test_record_tile_modify :
    decodeRecord ([0x11, 1, 2, 1, 1, 3, 9, 0, 8, 1, 2, 0, 16, 0, 4, 0, 1, 0, 6, 0, 5, 0, 15, 7, 4, 1, 2, 3]
        ++ List.replicate 4 0)
      = .tileModify { tag := 258, flags := 1, reservedZero := true } 1 3 9
          { x := 264, y := 2, w := 16, h := 4, scale := 1, cx := 6, cy := 5, source := 15, tour := 7
            borderWidth := 4, borderColour := 1, lossPolicy := 2, lossColour := 3 } := by decide

/-- LOCK_PARAMS carries the loss timeout in bytes 6-7; byte 31 is reserved. -/
theorem test_record_lock_params :
    decodeRecord ([0x32, 0, 9, 0, 4, 8, 0xE8, 3] ++ List.replicate 23 0 ++ [1])
      = .lockParams { tag := 9, flags := 0, reservedZero := false } 4 8 1000 := by decide

/-- R167: a zero-filled entry is an unknown command. -/
theorem test_record_zero :
    decodeRecord (List.replicate 32 0)
      = .badCommand { tag := 0, flags := 0, reservedZero := true } 0 := by decide

/-! ### Chapter 1, section 1.7 -/

def tile5 : Tile := tileAt 0 0 720 576 1 0 (some 0) none
def tile2 : Tile := tileAt 360 0 360 288 2 0 (some 1) none
def tile9 : Tile := tileAt 0 288 360 288 2 0 (some 2) none
def tile7 : Tile := tileAt 472 392 240 176 3 0 (some 3) none

/-- Head A's WORKING bank with these tiles. -/
def editing (l : List (SlotId × Tile)) : State := ready.setWorking .a (bankOf l)

def workingOrder (s : State) : List SlotId := (s.dir .a).working.order

/-- Step 3. -/
theorem test_place_at_rank :
    answer (.tilePlace plain 0 9 1 (blockOf tile9)) (editing [(2, tile2), (5, tile5)]) = some (.ok, 1)
    ∧ workingOrder (after (.tilePlace plain 0 9 1 (blockOf tile9)) (editing [(2, tile2), (5, tile5)]))
      = [2, 9, 5] := by decide

/-- Step 4. -/
theorem test_place_past_the_count :
    answer (.tilePlace plain 0 7 4 (blockOf tile7)) (editing [(2, tile2), (9, tile9), (5, tile5)])
      = some (.badArgument, 0) := by decide

/-- Step 8: the rank is clamped. -/
theorem test_restack_clamps :
    answer (.tileRestack plain 0 9 30) (editing [(7, tile7), (9, tile9), (2, tile2), (5, tile5)])
      = some (.ok, 3)
    ∧ workingOrder (after (.tileRestack plain 0 9 30)
        (editing [(7, tile7), (9, tile9), (2, tile2), (5, tile5)])) = [7, 2, 5, 9] := by decide

/-- Step 9: a VIEW that does not fit the tile's width. -/
theorem test_modify_window_too_wide :
    answer (.tileModify plain 0 2 2 { blockOf tile2 with cx := 16 }) (editing [(7, tile7), (2, tile2)])
      = some (.badGeometry, 0) := by decide

/-- Step 10: GEOMETRY and VIEW together. -/
theorem test_modify_two_groups :
    answer (.tileModify plain 0 2 3 { blockOf tile2 with x := 368, w := 352, cx := 16 })
      (editing [(7, tile7), (2, tile2), (5, tile5), (9, tile9)]) = some (.ok, 1)
    ∧ ((after (.tileModify plain 0 2 3 { blockOf tile2 with x := 368, w := 352, cx := 16 })
        (editing [(7, tile7), (2, tile2), (5, tile5), (9, tile9)])).dir .a).working.slots.get 2
      = some (tileAt 368 0 352 288 2 16 (some 1) none) := by decide

/-- Step 11. -/
theorem test_retire_closes_the_gap :
    answer (.tileRetire plain 0 5) (editing [(7, tile7), (2, tile2), (5, tile5), (9, tile9)])
      = some (.ok, 2)
    ∧ workingOrder (after (.tileRetire plain 0 5)
        (editing [(7, tile7), (2, tile2), (5, tile5), (9, tile9)])) = [7, 2, 9] := by decide

/-- Section 2.6, step 1: two tiles are freed. -/
theorem test_clear_counts :
    answer (.layoutClear plain 0) (editing [(6, tile7), (0, tile5)]) = some (.ok, 2) := by decide

/-- The last paragraph of section 1.7: LIVE is empty. -/
theorem test_revert_to_empty_live :
    answer (.layoutRevert plain 0) (editing [(7, tile7), (2, tile2), (9, tile9)]) = some (.ok, 0)
    ∧ workingOrder (after (.layoutRevert plain 0) (editing [(7, tile7), (2, tile2), (9, tile9)])) = [] := by
  decide

/-! ### Chapter 2, section 2.6 -/

def oldWall : Bank :=
  bankOf [(6, tileAt 480 40 200 160 3 0 (some 5) (some 1)), (0, tileAt 0 0 720 576 1 0 (some 0) none)]

def newWall (tour : Option TourId) : Bank :=
  bankOf [(0, tileAt 0 0 360 288 2 0 (some 0) none), (1, tileAt 360 0 360 288 2 0 (some 1) none),
    (2, tileAt 0 288 360 288 2 0 (some 2) none), (3, tileAt 360 288 360 288 2 0 (some 3) tour)]

def tourOf (sources : List SourceId) (dwell : Nat) (skipLost : Bool) : Tour :=
  { steps := sources.map (fun k => ⟨k, dwell⟩), skipLost }

/-- Head A of table 2-1 between frame 1000 and frame 1001, with the commit record given. -/
def wall (commit : Option CommitRecord) : State :=
  ((((((idle.setDir .a { working := newWall (some 2), live := oldWall, commit }).setHead .a
      { HeadRecord.reset with state := .running, standard := .s625, frameNumber := 1000 }).setTour 1
      (some (tourOf [8, 9, 10] 20 false))).setTour 2 (some (tourOf [4, 6, 7] 10 false))).setRuntime .a 6
      (some ⟨2, 7000, .running⟩)).setRule 4 (some ⟨none, .a, 6, 11, 3, 0, true⟩)).setList .a 6
      [⟨4, 3, 0, .latched⟩]

def commit41 : CommitRecord := { bank := newWall none, tag := 41, quiet := false, answered := true }
def commit42 : CommitRecord := { bank := newWall (some 2), tag := 42, quiet := false, answered := true }

/-- Step 8: commit 42 supersedes commit 41. -/
theorem test_commit_supersedes :
    let t := after (.layoutCommit { plain with tag := 42 } 0) (asked (wall (some commit41)))
    t.port.queue = [{ tag := 41, code := 0x16, result := .superseded, detail := 0, detail2 := 0 }]
    ∧ (t.dir .a).commit = some commit42 := by decide

/-- R24, R27: on the STOPPED head B the commit is applied at once. -/
theorem test_commit_on_stopped_head :
    let s := (asked (wall none)).setDir .b { working := newWall none, live := .empty, commit := none }
    answer (.layoutCommit plain 1) s = some (.ok, 0)
    ∧ ((after (.layoutCommit plain 1) s).dir .b).live.order = [0, 1, 2, 3] := by decide

/-- R29: the CANCELLED completion stands before the cancel's own. -/
theorem test_cancel_answers_both :
    ((after (.layoutCancel plain 0) (asked (wall (some commit41)))).port.queue.map
      (fun c => (c.tag, c.result, c.detail))) = [(41, .cancelled, 0), (7, .ok, 1)] := by decide

/-- Frame start 1001: the completion of commit 42, the new runtime of slot 3. -/
theorem test_frame_start_applies :
    let t := after (.frameStart .a) (wall (some commit42))
    t.port.queue = [{ tag := 42, code := 0x16, result := .ok, detail := 1001, detail2 := 0 }]
    ∧ t.runtime .a 3 = some ⟨0, 10000, .running⟩ ∧ t.runtime .a 6 = none := by decide

/-- Frame start 1001: C4 is cancelled, and slot 3 shows S4. -/
theorem test_frame_start_carries_over :
    let t := after (.frameStart .a) (wall (some commit42))
    t.notices.get (.callupRefused 4) = some (.reason .cancelled)
    ∧ t.notices.get (.callupChange .a 6) = some (.top none)
    ∧ (t.head .a).view.shown.get 3 = some 4 := by decide

/-- R44, R165: slot 3, latched S5 and FREE since, is made DEFINED on the STOPPED head A: it shows NONE. -/
theorem test_commit_shows_none :
    let s := (asked (wall none)).setHead .a
      { HeadRecord.reset with view := { FrameView.reset with shown := (Table.fill 32 none).set 3 (some 5) } }
    ((after (.layoutCommit plain 0) s).head .a).view.shown.get 3 = none := by decide

/-! ### Chapter 3 -/

/-- A source in a state, owning its own port. -/
def sourceIn (i : SourceId) (state : SourceState) (standard : Option Standard) : SourceRecord :=
  { SourceRecord.reset i with enabled := true, state, standard, lossTimer := some 100 }

/-- Section 3.6: head B before frame start 207. -/
def headB : State :=
  (((((((idle.setDir .b
      { working := .empty, commit := none
        live := bankOf
          [(1, ⟨⟨64, 400, 240, 144⟩, ⟨2, 0, 0⟩, some 9, none, ⟨2, 1, .freeze, 0⟩⟩),
           (4, ⟨⟨0, 0, 720, 480⟩, ⟨1, 0, 0⟩, some 8, none, ⟨0, 0, .black, 0⟩⟩)] }).setHead .b
      { HeadRecord.reset with state := .running, frameNumber := 206 }).setSource 8
      (sourceIn 8 .locked (some .s525))).setSource 9 (sourceIn 9 .lost (some .s525))).setPage 8
      { PageTable.reset with newest := some 2 }).setPage 9 { PageTable.reset with newest := some 0 }).setMasks
      9 ((Table.fill 4 none).set 0 (some ⟨60, 130, 40, 20, .solid 3⟩)))

theorem test_frame_start_claims :
    let t := after (.frameStart .b) headB
    (t.head .b).frameNumber = 207 ∧ t.port.cause.frameB = true ∧ t.holds .b 8 2 = true
    ∧ t.holds .b 9 0 = true := by decide

/-- Sample (65, 470) is border, sample (100, 470) the mask's colour. -/
theorem test_composed_samples :
    let t := after (.frameStart .b) headB
    sample t .b 65 470 = ⟨235, 128, 128⟩ ∧ sample t .b 100 470 = ⟨65, 100, 212⟩ := by decide

/-- R48: at the frame end both claims go. -/
theorem test_frame_end_releases :
    let t := after (.frameEnd .b) (after (.frameStart .b) headB)
    (t.head .b).inFlight = false ∧ t.holds .b 8 2 = false ∧ t.holds .b 9 0 = false := by decide

/-- R40. -/
theorem test_head_start :
    answer (.headStart plain 1 1) ready = some (.ok, 0)
    ∧ ((after (.headStart plain 1 1) ready).head .b).state = .running
    ∧ answer (.headStart plain 0 1) (asked (wall none)) = some (.headBusy, 0) := by decide

/-- R41: the number of the frame in flight. -/
theorem test_head_stop_in_flight :
    let s := asked (after (.frameStart .a) (wall none))
    answer (.headStop plain 0) s = some (.ok, 1001)
    ∧ ((after (.headStop plain 0) s).head .a).state = .stopping := by decide

/-- R41: the commit applied during the command is answered first. -/
theorem test_head_stop_applies :
    ((after (.headStop plain 0) (asked (wall (some commit42)))).port.queue.map
      (fun c => (c.tag, c.result, c.detail))) = [(42, .ok, 0), (7, .ok, 0)] := by decide

theorem test_palette_set :
    (after (.paletteSet plain 1 162 44 142) ready).palette.get 1 = ⟨162, 44, 142⟩
    ∧ answer (.paletteSet plain 16 0 0 0) ready = some (.badArgument, 0) := by decide

theorem test_head_background :
    ((after (.headBackground plain 1 15) ready).head .b).background = 15
    ∧ answer (.headBackground plain 1 16) ready = some (.badArgument, 0) := by decide

/-- R96: the two worked values of DARKEN. -/
theorem test_darken :
    (darkened ⟨180, 1, 2⟩ 2).y = 57 ∧ (darkened ⟨235, 1, 2⟩ 4).y = 29 := by decide

/-- R58, R170: the end-of-active code of a blanking line of the bottom field. -/
theorem test_timing_code_bytes : timingCodeBytes true true true = [255, 0, 0, 0xF1] := by decide

/-- R39, R59: the idle level while STOPPED, and no byte between the frames of a head that draws. -/
theorem test_output_between_frames :
    outputStream ready .a = [16]
    ∧ outputStream (after (.headStart plain 0 1) ready) .a = [16]
    ∧ outputStream (after (.frameEnd .b) (after (.frameStart .b) headB)) .b = [] := by decide

/-! ### Chapters 4 and 5 -/

/-- R62: the codes of a stretch; a 255 before a code is a byte of the line. -/
theorem test_codes_of_a_stretch :
    codesIn [1, 255, 0, 0, 0xF1, 2, 255] 0x80 = [([1], 0xF1), ([2, 255], 0x80)]
    ∧ codesIn [255, 0, 0] 0x80 = [([], 255)] := by decide

/-- S3 with a field of `lines` active lines in progress. -/
def judging (r : SourceRecord) (bit : Bool) (lines : Nat) : State :=
  idle.setSource 3 { r with field := some { bit, lines, wellFormed := true } }

/-- A timing code with the vertical-blank flag, on IN3. -/
def blankOn3 : Instr := .timingCode 3 0xAB []

/-- Section 4.7, field end 7. -/
theorem test_code_locks :
    let r := { sourceIn 3 .searching none with
      goodRun := 3, candidate := some .s625, lastBit := some true }
    let t := after blankOn3 (judging r false 288)
    (t.source 3).state = .locked ∧ (t.source 3).goodRun = 4 ∧ (t.source 3).standard = some .s625
    ∧ t.notices.get (.sourceState 3) = some (.state .locked) := by decide

/-- Section 4.7, field end 121: a repeated field bit. -/
theorem test_code_unlocks :
    let r := { sourceIn 3 .locked (some .s625) with
      goodRun := 4, candidate := some .s625, lastBit := some true }
    let t := after blankOn3 (judging r true 288)
    (t.source 3).state = .unstable ∧ (t.source 3).goodRun = 0 ∧ (t.source 3).badRun = 1 := by decide

/-- Section 5.6 at 178.2 ms: pages 0, 1 and 2 are taken, the writer gets page 3. -/
theorem test_code_starts_a_writer :
    let held (p : PageId) : Table 16 (Option PageId) := (Table.fill 16 none).set 7 (some p)
    let s := (((idle.setSource 7 { sourceIn 7 .locked (some .s525) with sawBlank := true }).setPage 7
      { PageTable.reset with newest := some 2 }).setHead .a
      { HeadRecord.reset with state := .running, inFlight := true, claims := held 1 }).setHead .b
      { HeadRecord.reset with state := .running, inFlight := true, claims := held 0 }
    ((after (.timingCode 7 0x80 []) s).page 7).writer
      = some { page := 3, height := 480, top := none } := by decide

/-- R64: field line 1 of a bottom field is frame line 3; a line of four bytes stores four (log 16). -/
theorem test_code_stores_a_line :
    let s := (idle.setSource 0 { sourceIn 0 .locked (some .s525) with
        lineOpen := true, field := some { bit := true, lines := 1, wellFormed := true } }).setPage 0
      { PageTable.reset with writer := some { page := 1, height := 480, top := some true } }
    (after (.timingCode 0 0x90 [128, 20, 130, 21]) s).store
      = [(833760, 128), (833761, 20), (833762, 130), (833763, 21)] := by decide

/-- Section 4.7: the cable is pulled; the standard stays. -/
theorem test_loss_timer_expiry :
    let t := after (.lossTimerExpiry 3) (idle.setSource 3 { sourceIn 3 .locked (some .s625) with
      goodRun := 4, lastBit := some false, lossTimer := some 0 })
    (t.source 3).state = .lost ∧ (t.source 3).goodRun = 0 ∧ (t.source 3).standard = some .s625
    ∧ (t.source 3).lastBit = none := by decide

/-- R75: the detail names the source that has the port. -/
theorem test_source_set_port_in_use :
    answer (.sourceSet plain ⟨4, 3, 0, 0, 0, 0⟩) (ready.setSource 3 (sourceIn 3 .lost none))
      = some (.portInUse, 3) := by decide

/-- Section 4.7, the SOURCE_SET of S3. -/
theorem test_source_set :
    let t := after (.sourceSet plain ⟨3, 3, 0, 16, 15, 0⟩) ready
    (t.source 3).state = .searching ∧ (t.source 3).lossTimer = some 100
    ∧ t.notices.get (.sourceState 3) = some (.state .searching) := by decide

theorem test_source_disable :
    let t := after (.sourceDisable plain 3) (ready.setSource 3 (sourceIn 3 .lost none))
    (t.source 3).state = .off ∧ t.notices.get (.sourceState 3) = some (.state .off) := by decide

/-- R74: steps of 20 ms. -/
theorem test_lock_params :
    (after (.lockParams plain 15 31 1000) ready).params = ⟨15, 31, 1000⟩
    ∧ answer (.lockParams plain 4 8 110) ready = some (.badArgument, 0) := by decide

/-- R79, R80: a discarded frame leaves its height to its page. -/
theorem test_discard_keeps_the_height :
    let s := (idle.setSource 3 { sourceIn 3 .locked (some .s625) with
        field := some { bit := true, lines := 285, wellFormed := true } }).setPage 3
      { PageTable.reset with newest := some 0, writer := some { page := 1, height := 576, top := some true } }
    let t := after blankOn3 s
    (t.page 3).newest = some 0 ∧ (t.page 3).writer = none ∧ (t.page 3).heights.cells = [480, 576, 480, 480] := by
  decide +kernel

/-! ### Chapter 6 -/

theorem test_mask_set :
    answer (.maskSet plain ⟨5, 2, 2, 2, 0, 500, 720, 76⟩) ready = some (.ok, 1)
    ∧ answer (.maskSet plain ⟨5, 2, 2, 2, 0, 502, 720, 76⟩) ready = some (.badGeometry, 0) := by decide

theorem test_mask_clear :
    let s := ready.setMasks 5 ((Table.fill 4 none).set 0 (some ⟨100, 50, 200, 100, .solid 2⟩))
    answer (.maskClear plain 5 0) s = some (.ok, 1) ∧ answer (.maskClear plain 5 255) ready = some (.ok, 0) := by
  decide

/-- Section 6.4: slot 0 decides where slots 0 and 1 overlap. -/
theorem test_governing_mask :
    let list : MaskSlots := ((Table.fill 4 none).set 0 (some ⟨100, 50, 200, 100, .solid 2⟩)).set 1
      (some ⟨200, 100, 200, 200, .mosaic 16⟩)
    (governing (some list) 250 120).map (fun m => m.kind) = some (.solid 2)
    ∧ (governing (some list) 300 180).map (fun m => m.kind) = some (.mosaic 16)
    ∧ governing (some list) 500 20 = none := by decide

/-! ### Chapter 7, section 7.6 -/

/-- Tour T3. -/
def tour3 : Tour := { steps := [⟨0, 10⟩, ⟨1, 5⟩, ⟨2, 5⟩, ⟨3, 10⟩], skipLost := true }

/-- Head A touring T3 in slot 4, with S0 and S3 in the states given and S1 and S2 LOST. -/
def touring (s0 s3 : SourceState) (r : Runtime) : State :=
  ((((((((idle.setDir .a
      { working := .empty, commit := none
        live := bankOf [(4, tileAt 0 0 360 288 2 0 none (some 3))] }).setHead .a
      { HeadRecord.reset with state := .running, standard := .s625 }).setTour 3 (some tour3)).setRuntime .a 4
      (some r)).setSource 0 (sourceIn 0 s0 none)).setSource 1 (sourceIn 1 .lost none)).setSource 2
      (sourceIn 2 .lost none)).setSource 3 (sourceIn 3 s3 none))

/-- At 10 s: steps 1 and 2 are passed over. -/
theorem test_dwell_expiry_skips :
    let t := after (.dwellExpiry .a 4) (touring .locked .locked ⟨0, 0, .running⟩)
    t.runtime .a 4 = some ⟨3, 10000, .running⟩ ∧ t.notices.get (.tourAllLost .a 4) = none := by decide

/-- At 36 s: none qualifies. -/
theorem test_dwell_expiry_all_lost :
    let t := after (.dwellExpiry .a 4) (touring .lost .lost ⟨0, 0, .running⟩)
    t.runtime .a 4 = some ⟨1, 5000, .running⟩
    ∧ t.notices.get (.tourAllLost .a 4) = some (.step 1) ∧ t.port.cause.notice = true := by decide

/-- As at 50 s, with S3 the step held: the search finds the current step alone. -/
theorem test_tour_control_next_held :
    let t := after (.tourControl plain 0 4 2) (asked (touring .lost .locked ⟨3, 2000, .held⟩))
    t.runtime .a 4 = some ⟨3, 10000, .held⟩
    ∧ answer (.tourControl plain 0 4 2) (asked (touring .lost .locked ⟨3, 2000, .held⟩))
      = some (.ok, 3) := by decide

/-- R102: the bound runtime is restarted, and its state kept. -/
theorem test_tour_set_restarts :
    let c : Instr := .tourSet plain ⟨3, 1, 0, (9, 255) :: List.replicate 11 (99, 0)⟩
    let s := asked (touring .lost .lost ⟨3, 2000, .held⟩)
    answer c s = some (.ok, 1) ∧ (after c s).runtime .a 4 = some ⟨0, 255000, .held⟩ := by decide

/-- R103: one tile of LIVE binds T3. -/
theorem test_tour_retire_in_use :
    answer (.tourRetire plain 3) (asked (touring .lost .lost ⟨3, 2000, .held⟩)) = some (.tourInUse, 1)
    ∧ answer (.tourRetire plain 2) ready = some (.ok, 0) := by decide

/-! ### Chapter 8, section 8.5 -/

/-- AL2 with the rules C6 and C14, slot 1 of head A and slot 0 of head B DEFINED. -/
def bouncing (r : LineRecord) : State :=
  ((((idle.setDir .a { working := .empty, live := bankOf [(1, tile2)], commit := none }).setDir .b
    { working := .empty, live := bankOf [(0, tile2)], commit := none }).setLine 2 r).setRule 6
    (some ⟨some 2, .a, 1, 11, 5, 20, false⟩)).setRule 14 (some ⟨some 2, .b, 0, 11, 3, 0, false⟩)

/-- The line at rest, its contact closed 50 ms ago. -/
def line2 : LineRecord :=
  { enabled := true, polarity := .activeLow, debounce := 5, state := .idle, timer := some 0, pinHigh := false
    rawHigh := false, sampled := false }

/-- The two entries of C6 and C14 while the alarm stands. -/
def standing : State :=
  ((bouncing { line2 with state := .active, timer := none }).setList .a 1 [⟨6, 5, 0, .asserted⟩]).setList .b 0
    [⟨14, 3, 1, .asserted⟩]

/-- AL2 at rest, its pin high at the last sample, and the pin and the mark of the sample since. -/
def quiet2 (pinHigh sampled : Bool) : LineRecord :=
  { line2 with timer := none, pinHigh, rawHigh := true, sampled }

/-- At 0 ms: the sample falls at the change, or at the millisecond's end. -/
theorem test_level_change_starts_the_timer :
    (after (.levelChange 2 ⟨false, true⟩) (bouncing (quiet2 true false))).line 2
      = { line2 with timer := some 50, sampled := true }
    ∧ (tick (after (.levelChange 2 ⟨false, false⟩) (bouncing (quiet2 true false)))).line 2
      = { line2 with timer := some 50 } := by decide +kernel

/-- R116: one sample in a millisecond; a change after it is left to the next one. -/
theorem test_sample_takes_the_level_that_remains :
    let s := after (.levelChange 2 ⟨true, true⟩) (after (.levelChange 2 ⟨false, true⟩)
      (bouncing (quiet2 true false)))
    s.line 2 = { line2 with timer := some 50, pinHigh := true, sampled := true }
    ∧ (tick s).line 2 = { line2 with timer := some 49, pinHigh := true } := by
  decide +kernel

/-- R116: two changes between two samples are no change, with debounce 0 as well. -/
theorem test_pulse_between_samples :
    let pulse := fun s => after (.levelChange 2 ⟨true, false⟩) (after (.levelChange 2 ⟨false, false⟩) s)
    (tick (pulse (bouncing (quiet2 true false)))).line 2 = quiet2 true false
    ∧ (tick (pulse (bouncing { quiet2 true false with debounce := 0 }))).lists = idle.lists := by
  decide +kernel

/-- At 56 ms: C6 and then C14. -/
theorem test_debounce_expiry_fires :
    let t := after (.debounceExpiry 2) (bouncing line2)
    t.list .a 1 = [⟨6, 5, 0, .asserted⟩] ∧ t.list .b 0 = [⟨14, 3, 1, .asserted⟩] ∧ t.arrival = 2
    ∧ (t.line 2).state = .active ∧ t.notices.get (.callupChange .b 0) = some (.top (some 14)) := by decide

/-- At 3000 ms: the release within LINE_SET. -/
theorem test_line_set_releases :
    let c : Instr := .lineSet plain 2 1 1 20
    let t := after c (asked standing)
    answer c (asked standing) = some (.ok, 1)
    ∧ t.list .a 1 = [⟨6, 5, 0, .holding 20000⟩] ∧ t.list .b 0 = []
    ∧ t.line 2 = { line2 with debounce := 20, timer := some 200 }
    ∧ t.notices.get (.callupChange .b 0) = some (.top none) := by decide

/-- R121: with debounce 0 the assertion comes within the command. -/
theorem test_line_set_without_debounce :
    let t := after (.lineSet plain 2 1 1 0) (asked standing)
    (t.line 2).state = .active ∧ t.list .a 1 = [⟨6, 5, 0, .asserted⟩] := by decide

/-- As at 3100 ms: the entry goes, with detail 1. -/
theorem test_rule_set_removes :
    let c : Instr := .ruleSet plain ⟨6, 2, 0, 1, 11, 5, 20, 0⟩
    answer c (asked standing) = some (.ok, 1) ∧ (after c (asked standing)).list .a 1 = []
    ∧ (after c (asked standing)).notices.get (.callupChange .a 1) = some (.top none) := by decide

theorem test_rule_retire :
    answer (.ruleRetire plain 14) (asked standing) = some (.ok, 1)
    ∧ (after (.ruleRetire plain 14) (asked standing)).rule 14 = none
    ∧ answer (.ruleRetire plain 15) (asked standing) = some (.ok, 0) := by decide

/-! ### Chapter 9, section 9.6 -/

/-- Slot 2 of head A with its five rules, the list and the active lines given. -/
def alarms (list : List Entry) (arrival : Word) (l0 l1 l2 : LineState) : State :=
  let on (st : LineState) : LineRecord :=
    { LineRecord.reset with
      enabled := true, state := st, timer := some 0, debounce := 0, pinHigh := true, rawHigh := true }
  { ((((((((((idle.setDir .a
        { working := .empty, live := bankOf [(2, tile2)], commit := none }).setLine 0 (on l0)).setLine 1
        (on l1)).setLine 2 (on l2)).setRule 1 (some ⟨some 0, .a, 2, 8, 2, 10, false⟩)).setRule 2
        (some ⟨some 1, .a, 2, 9, 5, 0, false⟩)).setRule 3 (some ⟨some 1, .a, 2, 10, 5, 30, false⟩)).setRule 4
        (some ⟨some 2, .a, 2, 11, 6, 15, true⟩)).setRule 5 (some ⟨none, .a, 2, 12, 1, 60, false⟩)).setList
        .a 2 list) with arrival }

/-- The list at 12 s, two seconds on. -/
def fullList : List Entry :=
  [⟨2, 5, 102, .asserted⟩, ⟨3, 5, 103, .asserted⟩, ⟨1, 2, 101, .holding 8000⟩, ⟨5, 1, 100, .holding 46000⟩]

/-- The list after AL2's assertion at 14 s. -/
def fullList4 : List Entry :=
  [⟨4, 6, 104, .asserted⟩, ⟨2, 5, 102, .asserted⟩, ⟨3, 5, 103, .asserted⟩, ⟨1, 2, 101, .holding 8000⟩]

/-- At 14 s: C4 evicts C5. -/
theorem test_assertion_evicts :
    let t := after (.debounceExpiry 2) (alarms fullList 104 .idle .active .idle)
    t.list .a 2 = fullList4 ∧ t.arrival = 105
    ∧ t.notices.get (.callupRefused 5) = some (.reason .displaced)
    ∧ t.notices.get (.callupChange .a 2) = some (.top (some 4)) := by decide

/-- At 16 s. -/
theorem test_trigger_list_full :
    answer (.callupTrigger plain 5) (asked (alarms fullList4 105 .idle .active .active))
      = some (.listFull, 0) := by decide

/-- At 0 s. -/
theorem test_trigger_holds :
    let s := asked (alarms [] 100 .idle .idle .idle)
    answer (.callupTrigger plain 5) s = some (.ok, 0)
    ∧ (after (.callupTrigger plain 5) s).list .a 2 = [⟨5, 1, 100, .holding 60000⟩] := by decide

/-- At 20 s: AL1 releases; its pin is low. -/
theorem test_release_by_hold :
    let s := alarms fullList4 105 .idle .active .active
    (after (.debounceExpiry 1) (s.setLine 1 { s.line 1 with rawHigh := false })).list .a 2
      = [⟨4, 6, 104, .asserted⟩, ⟨3, 5, 103, .holding 30000⟩, ⟨1, 2, 101, .holding 8000⟩] := by decide

/-- At 50 s: C3's hold ends, and the tile goes to C1. -/
theorem test_hold_expiry :
    let t := after (.holdExpiry 3)
      (alarms [⟨3, 5, 103, .holding 0⟩, ⟨1, 2, 105, .asserted⟩] 106 .active .idle .idle)
    t.list .a 2 = [⟨1, 2, 105, .asserted⟩]
    ∧ t.notices.get (.callupChange .a 2) = some (.top (some 1)) := by decide

/-- At 30 s. -/
theorem test_callup_clear :
    let s := asked (alarms [⟨4, 6, 104, .latched⟩, ⟨3, 5, 103, .holding 20000⟩, ⟨1, 2, 105, .asserted⟩] 106
      .active .idle .idle)
    answer (.callupClear plain 0 2 4) s = some (.ok, 1)
    ∧ (after (.callupClear plain 0 2 4) s).notices.get (.callupChange .a 2) = some (.top (some 3))
    ∧ answer (.callupClear plain 0 2 255) s = some (.ok, 3) := by decide

/-! ### Chapter 10 -/

/-- Section 10.7: the completion ring at a step, head A's commit record as given. -/
def ring (cplWrite cplRead : Nat) (commit : Option CommitRecord) (p : Port) : State :=
  (wall commit).setPort { p with cplWrite, cplRead }

/-- Step 4. -/
theorem test_fetch_waits_without_room :
    let t := after (.headBackground plain 0 3) (ring 15 0 (some commit41) fetching)
    t.port.proc = .waiting ∧ t.port.held = some (.headBackground plain 0 3) ∧ t.port.cmdConsumer = 1
    ∧ (t.head .a).background = 0 := by decide

/-- Tag 17 held in WAITING. -/
def waiting : Port :=
  { fetching with proc := .waiting, held := some (.headBackground plain 0 3), path := none, cmdConsumer := 1 }

/-- Step 8. -/
theorem test_leave_waiting :
    let t := after .leaveWaiting (ring 16 4 none waiting)
    (t.head .a).background = 3 ∧ t.port.proc = .idle ∧ t.freeSpace = 3
    ∧ after .leaveWaiting (ring 16 0 none waiting) = ring 16 0 none waiting := by decide

/-- Step 7, and the write of 20 in its place. -/
theorem test_cpl_read :
    (after (.cplRead 4) (ring 16 0 none waiting)).freeSpace = 4
    ∧ (after (.cplRead 20) (ring 16 0 none waiting)).port.cplRead = 0
    ∧ (after (.cplRead 20) (ring 16 0 none waiting)).port.cause.indexError = true := by decide

/-- Step 9: index 16 of a ring of 16 is entry 0, with phase 0 and CPL raised. -/
theorem test_completion_write :
    let t := after .completionWrite (ring 16 4 none { idle.port with
      cplBase := 0x1000, path := some .completionWrite
      queue := [{ tag := 17, code := 0x23, result := .ok, detail := 0, detail2 := 0 }] })
    t.port.cplWrite = 17 ∧ t.port.queue = [] ∧ t.port.cause.cpl = true
    ∧ t.port.lastWrite = some ⟨0x1000, [17, 0, 0x23, 0, 0, 0, 0, 0, 0, 0, 0, 0, 0, 0, 0, 0]⟩ := by decide

/-- Section 10.8: a query with five of sixteen records written. -/
def querying : Port :=
  { fetching with
    proc := .executing, path := some .resultWrite, cmdConsumer := 1
    query := some { header := quiet, code := 0x60, address := 0x2078
                    left := List.replicate 11 (.plain [1, 2]), written := 5, available := 16 } }

/-- Step 2: the query, though quiet, is answered DATA_FAULT. -/
theorem test_bus_fault_cuts_the_query :
    let t := after (.busFault .targetAbort) (idle.setPort querying)
    t.port.queue = [{ tag := 7, code := 0x60, result := .dataFault, detail := 5, detail2 := 16 }]
    ∧ t.port.fault = some ⟨.targetAbort, .resultWrite, 0x2078⟩ ∧ t.port.proc = .faulted
    ∧ t.port.path = none := by decide

/-- R154: DATA_PARITY does not arise on a write. -/
theorem test_no_parity_fault_on_a_write :
    after (.busFault .dataParity) (idle.setPort querying) = idle.setPort querying := by decide

/-- Step 5: the writer resumes. -/
theorem test_restart :
    let t := after .restart (idle.setPort { idle.port with
      proc := .faulted, fault := some ⟨.targetAbort, .resultWrite, 0x2078⟩
      queue := [{ tag := 30, code := 0x60, result := .dataFault, detail := 5, detail2 := 16 }] })
    t.port.proc = .idle ∧ t.port.fault = none ∧ t.port.path = some .completionWrite := by decide

/-- R147: a base that is no multiple of its ring's byte size. -/
theorem test_run_set :
    (after .runSet (idle.setPort { idle.port with run := false, proc := .stopped })).port.proc = .idle
    ∧ (after .runSet (idle.setPort { idle.port with
        run := false, proc := .stopped, cmdBase := 256 })).port.cause.indexError = true := by decide

theorem test_run_clear :
    (after .runClear idle).port.proc = .stopped ∧ (after .runClear ready).port.proc = .fetching := by decide

/-- R153: a mark left from EACH mode gives one CPL. -/
theorem test_mode_drained :
    let t := after (.completionInterruptMode .drained) (idle.setPort { idle.port with mark := true })
    t.port.cause.cpl = true ∧ t.port.mark = false := by decide

theorem test_cmd_size :
    let s := idle.setPort { idle.port with run := false, proc := .stopped, cmdProducer := 3 }
    (after (.cmdSize 1024) s).port.cmdSize = 1024 ∧ (after (.cmdSize 1024) s).port.cmdProducer = 0
    ∧ (after (.cmdSize 48) s).port.cause.indexError = true := by decide

theorem test_cpl_size :
    let s := idle.setPort { idle.port with run := false, proc := .stopped }
    (after (.cplSize 32) s).port.cplSize = 32
    ∧ (after (.cplSize 32) (idle.setPort { s.port with
        queue := [{ tag := 1, code := 1, result := .ok, detail := 0, detail2 := 0 }] })).port.cplSize = 16 := by
  decide

/-- R142: with 15 outstanding one entry is free. -/
theorem test_cmd_producer :
    let s := ready.setPort { fetching with cmdProducer := 15 }
    (after (.cmdProducer 16) s).port.cmdProducer = 16 ∧ (after (.cmdProducer 17) s).port.cmdProducer = 15
    ∧ (after (.cmdProducer 17) s).port.cause.indexError = true := by decide

theorem test_cause_acknowledges :
    let c : Causes := { Causes.clear with cpl := true, frameB := true }
    (after (.cause 0x20) (idle.setPort { idle.port with cause := c })).port.cause
      = { Causes.clear with cpl := true } := by decide

/-- R169: part of a word is discarded; ENABLE takes the bits. -/
theorem test_register_write :
    after (.registerWrite 0x034 7 0x3F) idle = idle
    ∧ (after (.registerWrite 0x034 15 0x12) idle).port.enable
      = { Causes.clear with notice := true, frameA := true } := by decide

/-- R169: HEAD_STATUS of head A RUNNING at S625 with a commit pending, and its frame. -/
theorem test_window_read :
    (wall (some commit41)).readWindow 0x060 = 0x19 ∧ (wall (some commit41)).readWindow 0x064 = 1000 := by
  decide

/-- R34: the pending commit stays, UNANSWERED. -/
theorem test_port_reset :
    let t := after .portReset (ring 15 0 (some commit41) waiting)
    t.port.proc = .stopped ∧ t.port.held = none ∧ t.port.cplWrite = 0 ∧ t.port.cplSize = 16
    ∧ (t.dir .a).commit = some { commit41 with answered := false } ∧ t.reservations = 0 := by decide

/-- R158. -/
theorem test_device_reset :
    after .deviceReset (wall (some commit41)) = State.reset := by decide

/-- The fetch of a zero-filled entry is answered BAD_COMMAND (R167), as BAD_COMMAND itself is. -/
theorem test_fetch_of_zeros :
    answer (.fetch (List.replicate 32 0)) ready = some (.badCommand, 0)
    ∧ answer (.badCommand quiet 0x18) ready = some (.badCommand, 0) := by decide

/-! ### Chapter 11 -/

/-- The query's run before its last record, S9 = LOCKED. -/
def lastRecord : QueryRun :=
  { header := plain, code := 0x67, address := 0x3008, written := 1, available := 4
    left := [{ bytes := noticeBytes (.sourceState 9) (.state .locked)
               notice := some (.sourceState 9, .state .locked) }] }

/-- Section 11.5, before record 1 is written, S9 gone UNSTABLE since the snapshot. -/
def reading : State :=
  { idle with
    notices := ((NoticeSet.empty.put (.sourceState 9) (some (.state .unstable))).put (.callupChange .b 4)
      (some (.top (some 7)))).put (.callupRefused 3) (some (.reason .displaced))
    port := { querying with query := some lastRecord } }

/-- Record 1: the value was replaced, so the notice stays; 2 written, 3 left. -/
theorem test_result_write :
    let t := after .resultWrite reading
    t.notices = reading.notices
    ∧ t.port.lastWrite = some ⟨0x3008, [0, 0, 9, 2, 0, 0, 0, 0]⟩
    ∧ t.port.queue = [{ tag := 7, code := 0x67, result := .ok, detail := 2, detail2 := 3 }] := by decide

/-- A query's first record owed to the buffer, and how many. -/
def owed (i : Instr) (s : State) : Option (Nat × List Byte) :=
  (after i s).port.query.bind (fun q => q.left.head?.map (fun r => (q.left.length, r.bytes)))

theorem test_query_sources :
    owed (.querySources plain ⟨16, 20⟩) (ready.setSource 0 (sourceIn 0 .locked (some .s625)))
      = some (16, [0, 1, 0, 0, 0, 0, 0, 2, 2, 0, 0, 255, 0, 0, 0, 0, 0, 0, 0, 0, 0, 0, 0, 0])
    ∧ answer (.querySources plain ⟨8, 20⟩) ready = some (.badArgument, 0) := by decide

theorem test_query_layout :
    owed (.queryLayout plain ⟨0, 1⟩ 0 0) (editing [(7, tile7)])
      = some (1, [7, 0, 0, 0, 216, 1, 136, 1, 240, 0, 176, 0, 3, 0, 0, 0, 0, 0, 3, 255, 2, 1, 0, 0])
    ∧ answer (.queryLayout plain ⟨0, 1⟩ 0 1) ready = some (.nothingPending, 0) := by decide

theorem test_query_runtime :
    owed (.queryRuntime plain ⟨0, 255⟩ 0) (asked (touring .lost .lost ⟨2, 1001, .held⟩))
      = some (1, [4, 255, 1, 3, 2, 1, 2, 0, 255, 0, 0, 0, 0, 0, 0, 0]) := by decide

theorem test_query_tour :
    owed (.queryTour plain ⟨0, 1⟩ 3) (asked (touring .lost .lost ⟨0, 0, .held⟩))
      = some (1, [3, 1, 4, 1, 0, 0, 0, 0, 0, 10, 1, 5, 2, 5, 3, 10] ++ List.replicate 16 0) := by decide

theorem test_query_rules :
    owed (.queryRules plain ⟨0, 2⟩) (ready.setRule 0 (some ⟨none, .b, 31, 15, 7, 255, true⟩))
      = some (2, [0, 1, 255, 1, 31, 15, 7, 255, 1, 0, 0, 0, 0, 0, 0, 0]) := by decide

theorem test_query_lines :
    owed (.queryLines plain ⟨0, 255⟩) (ready.setLine 0 line2) = some (16, [0, 1, 1, 5, 0, 0, 0, 0]) := by
  decide

/-- R165: a hold of 20 001 ms is reported as 21 s. -/
theorem test_query_callups :
    owed (.queryCallups plain ⟨0, 4⟩ 0 2)
      (asked (alarms [⟨3, 5, 0x01020304, .holding 20001⟩] 0 .idle .idle .idle))
      = some (1, [3, 5, 1, 21, 4, 3, 2, 1, 0, 0, 0, 0, 0, 0, 0, 0]) := by decide

/-- R162: a max count of 0 still reports the count. -/
theorem test_query_notices :
    let s := { reading with port := fetching }
    owed (.queryNotices plain ⟨0, 2⟩) s = some (2, [0, 0, 9, 3, 0, 0, 0, 0])
    ∧ (after (.queryNotices plain ⟨0, 0⟩) s).port.queue
      = [{ tag := 7, code := 0x67, result := .ok, detail := 0, detail2 := 3 }] := by decide

/-! ### Every statement's hypotheses are met -/

/-- A line that has taken its sample, one that has not, and a quiet machine. -/
theorem test_meets_EmptyQueueIsOneMillisecond :
    (wall none).pending = [] ∧ (∀ l, ((wall none).line l).pinHigh = ((wall none).line l).rawHigh)
    ∧ (bouncing (quiet2 false true)).pending = [] ∧ ((bouncing (quiet2 false true)).line 2).sampled = true
    ∧ ((bouncing (quiet2 false true)).line 3).sampled = false := by decide

theorem test_meets_NoRoomHoldsTheCommand :
    let s := ring 15 0 (some commit41) fetching
    (ringHeader (.headBackground plain 0 3)).isSome = true ∧ s.fetchUnderWay = true ∧ s.hasRoom = false := by
  decide

/-- The first clause at the consumer before 1 and at the one before 0; the third at both disjuncts. -/
theorem test_meets_WaitingCommandIsCarriedOut :
    let s := ring 16 4 none waiting
    let u := ring 16 4 none { waiting with cmdConsumer := 0 }
    (ringHeader (.headBackground plain 0 3)).isSome = true
    ∧ s.port.proc = .waiting ∧ s.port.held = some (.headBackground plain 0 3) ∧ s.hasRoom = true
    ∧ s.port.path = none ∧ (0 + 1) % (2 * s.port.cmdSize) = s.port.cmdConsumer
    ∧ u.port.proc = .waiting ∧ u.port.held = some (.headBackground plain 0 3) ∧ u.hasRoom = true
    ∧ u.port.path = none ∧ (31 + 1) % (2 * u.port.cmdSize) = u.port.cmdConsumer
    ∧ ready.port.proc ≠ .waiting ∧ (ring 16 0 none waiting).hasRoom = false := by decide

theorem test_meets_UnknownCodeAnsweredBadCommand : ready.Ready := by
  simp only [State.Ready]; decide

/-- A slot of 32, and a reserved byte that is not zero. -/
theorem test_meets_OperandOutOfRangeRefused :
    ready.Ready ∧ ringHeader (.tileRetire plain 0 32) = some plain
    ∧ (Instr.tileRetire plain 0 32).code = some 0x13
    ∧ (∀ h c, Instr.tileRetire plain 0 32 ≠ .badCommand h c)
    ∧ operandsInRange (.tileRetire plain 0 32) = false
    ∧ ringHeader (.tileRetire unclean 0 31) = some unclean ∧ unclean.clean = false
    ∧ (Instr.tileRetire unclean 0 31).code = some 0x13
    ∧ ∀ h c, Instr.tileRetire unclean 0 31 ≠ .badCommand h c :=
  ⟨⟨by decide, by decide⟩, rfl, rfl, nofun, by decide, rfl, by decide, rfl, nofun⟩

theorem test_meets_RefusedCommandChangesNothing :
    let i : Instr := .tileRetire plain 0 0
    let c : Completion := { tag := 7, code := 0x13, result := .slotFree, detail := 0, detail2 := 0 }
    ringHeader i = some plain ∧ i.code = some 0x13 ∧ ready.Ready ∧ exec i ready = .next (after i ready)
    ∧ (after i ready).port.queue = [] ++ [c] ∧ c.tag = plain.tag ∧ c.code = 0x13
    ∧ ready.port.queue = [] ∧ c.result ≠ .ok ∧ c.result ≠ .superseded ∧ c.result ≠ .cancelled :=
  ⟨rfl, rfl, ⟨by decide, by decide⟩, rfl, by decide, rfl, rfl, rfl, by decide, by decide, by decide⟩

/-- Two tiles stand: ranks 2 and 255 insert, ranks 3 and 32 are refused. -/
theorem test_meets_TilePlaceInsertsAtItsRank :
    let s := editing [(2, tile2), (5, tile5)]
    let n := (s.dir .a).working.slots.count Option.isSome
    s.Ready ∧ plain.clean = true ∧ tileInRange (blockOf tile9) = true ∧ Carries (blockOf tile9) 31 tile9
    ∧ 2 = n ∧ n < 3 ∧ n < 32 ∧ GeometryPasses tile9 ∧ (s.dir .a).working.slots.get 9 = none
    ∧ TourIsDefined s tile9 := by
  simp only [State.Ready, Carries, GeometryPasses, TourIsDefined, ← Option.mem_def]; decide

def editing2 : State := editing [(2, tile2), (5, tile5)]
def tooWide : Tile := tileAt 8 0 720 576 1 0 none none
def unboundTour : Tile := tileAt 0 0 720 576 1 0 none (some 1)

/-- x + w = 728; slot 2 DEFINED; tour T1 EMPTY. -/
theorem test_meets_TilePlaceChecksInOrder :
    editing2.Ready ∧ plain.clean = true ∧ 2 ≤ (editing2.dir .a).working.slots.count Option.isSome
    ∧ tileInRange (blockOf tooWide) = true ∧ Carries (blockOf tooWide) 31 tooWide ∧ ¬ GeometryPasses tooWide
    ∧ tileInRange (blockOf tile9) = true ∧ Carries (blockOf tile9) 31 tile9 ∧ GeometryPasses tile9
    ∧ (editing2.dir .a).working.slots.get 2 ≠ none ∧ (editing2.dir .a).working.slots.get 9 = none
    ∧ tileInRange (blockOf unboundTour) = true ∧ Carries (blockOf unboundTour) 31 unboundTour
    ∧ GeometryPasses unboundTour ∧ ¬ TourIsDefined editing2 unboundTour := by
  repeat' apply And.intro
  all_goals try simp only [GeometryPasses, TourIsDefined, ← Option.mem_def]
  all_goals decide

def shifted (scale cx : Nat) (tour : Option TourId) : Tile := tileAt 360 0 360 288 scale cx (some 1) tour

/-- Selectors 2 (VIEW) and 8 (TOUR) on slot 2, 31 on the FREE slot 9. -/
theorem test_meets_TileModifyReplacesSelectedGroups :
    editing2.Ready ∧ plain.clean = true
    ∧ selectedInRange 31 (blockOf tile9) = true ∧ (editing2.dir .a).working.slots.get 9 = none
    ∧ (editing2.dir .a).working.slots.get 2 = some tile2
    ∧ selectedInRange 2 (blockOf (shifted 2 16 none)) = true
    ∧ Carries (blockOf (shifted 2 16 none)) 2 (shifted 2 16 none)
    ∧ AgreeElsewhere 2 (shifted 2 16 none) tile2 ∧ ¬ GeometryPasses (shifted 2 16 none)
    ∧ selectedInRange 2 (blockOf (shifted 1 16 none)) = true
    ∧ Carries (blockOf (shifted 1 16 none)) 2 (shifted 1 16 none)
    ∧ AgreeElsewhere 2 (shifted 1 16 none) tile2 ∧ GeometryPasses (shifted 1 16 none)
    ∧ Nat.testBit 2 3 = false
    ∧ selectedInRange 8 (blockOf (shifted 2 0 (some 1))) = true
    ∧ Carries (blockOf (shifted 2 0 (some 1))) 8 (shifted 2 0 (some 1))
    ∧ AgreeElsewhere 8 (shifted 2 0 (some 1)) tile2 ∧ GeometryPasses (shifted 2 0 (some 1))
    ∧ Nat.testBit 8 3 = true ∧ ¬ TourIsDefined editing2 (shifted 2 0 (some 1))
    ∧ TourIsDefined (editing2.setTour 1 (some tour3)) (shifted 2 0 (some 1)) := by
  repeat' apply And.intro
  all_goals try simp only [GeometryPasses, TourIsDefined, ← Option.mem_def]
  all_goals decide

theorem test_meets_RestackRetireClearRevert :
    let s := editing [(2, tile2), (5, tile5)]
    s.Ready ∧ plain.clean = true ∧ (s.dir .a).working.slots.get 5 ≠ none
    ∧ (s.dir .a).working.slots.get 31 = none := by
  simp only [State.Ready]; decide

/-! #### Invariants at a state with tiles, tours, a call-up, a pending commit, a writer and a frame -/

theorem forall_head {p : Head → Prop} : (∀ h, p h) ↔ p .a ∧ p .b :=
  ⟨fun all => ⟨all _, all _⟩, fun both h => by cases h; exacts [both.1, both.2]⟩

/-- What `ToursOk` asks of one head, in a form that can be decided. -/
abbrev HeadTours (s : State) (h : Head) : Prop :=
  let binds (b : Bank) : Prop := ∀ slot, ∀ tile ∈ b.slots.get slot, ∀ y ∈ tile.tour, (s.tour y).isSome = true
  binds (s.dir h).working ∧ binds (s.dir h).live ∧ (∀ c ∈ (s.dir h).commit, binds c.bank)
  ∧ (∀ slot, (s.runtime h slot).isSome = true ↔ ∃ tile ∈ s.liveTile h slot, ∃ y, y ∈ tile.tour)
  ∧ ∀ slot, ∀ z ∈ s.touring h slot, z.2.step < z.1.steps.length

theorem toursOk_of_heads {s : State}
    (lengths : ∀ y, ∀ t ∈ s.tour y, 1 ≤ t.steps.length ∧ t.steps.length ≤ 12)
    (heads : HeadTours s .a ∧ HeadTours s .b) : s.ToursOk := by
  have each : ∀ h, HeadTours s h := forall_head.2 heads
  refine ⟨fun y t => lengths y t, fun h => ⟨?_, ?_, fun c hc => ?_⟩, fun h slot => ?_, fun h slot t r => ?_⟩
  · exact fun slot tile y ht => (each h).1 slot tile ht y
  · exact fun slot tile y ht => (each h).2.1 slot tile ht y
  · exact fun slot tile y ht => (each h).2.2.1 c hc slot tile ht y
  · rw [(each h).2.2.2.1 slot]
    exact ⟨fun ⟨tile, ht, y, hy⟩ => ⟨tile, y, ht, hy⟩, fun ⟨tile, y, ht, hy⟩ => ⟨tile, ht, y, hy⟩⟩
  · exact fun hz => (each h).2.2.2.2 slot (t, r) hz

/-- Head A of section 2.6 with commit 42 pending, head B in frame 207, source S8 being written. -/
def busy : State :=
  ((((wall (some commit42)).setHead .b
    { HeadRecord.reset with state := .stopping, inFlight := true, sending := true, frameNumber := 207
                            claims := (Table.fill 16 none).set 8 (some 2) }).setSource 8
    (sourceIn 8 .locked (some .s525))).setPage 8
    { PageTable.reset with newest := some 2, writer := some { page := 0, height := 480, top := none } }).setStore
    [(0, 16), (1, 128)]

theorem busy_toursOk : busy.ToursOk := toursOk_of_heads (by decide) (by decide)

theorem busy_headsOk : busy.HeadsOk := by
  simp only [State.HeadsOk, forall_head]
  decide

/-- A step of each kind: an empty queue, a frame start, a device reset. -/
theorem test_meets_EveryStepKeepsTheStoreCanonical :
    busy.StoreOk ∧ step busy = .next (tick busy) := by
  simp only [State.StoreOk]
  exact ⟨by decide, rfl⟩

theorem test_meets_EveryStepKeepsTheRankOrders :
    let s : State := { busy with pending := [.frameStart .a] }
    s.RanksOk ∧ step s = .next (after (.frameStart .a) busy) := by
  refine ⟨?_, rfl⟩
  simp only [State.RanksOk, Directory.RankOk, Bank.RankOk, forall_head, ← Option.mem_def]
  decide

theorem test_meets_EveryStepKeepsPortsApart :
    busy.SourcesOk ∧ step busy = .next (tick busy) := by
  refine ⟨?_, rfl⟩
  simp only [State.SourcesOk]
  decide

theorem test_meets_EveryStepKeepsHeadsConsistent :
    busy.HeadsOk ∧ step { busy with pending := [.frameEnd .b] } = .next (after (.frameEnd .b) busy) :=
  ⟨busy_headsOk, rfl⟩

theorem test_meets_EveryStepKeepsWriterPagesFree :
    busy.WritersOk ∧ step { busy with pending := [.frameStart .a] } = .next (after (.frameStart .a) busy) := by
  refine ⟨?_, rfl⟩
  simp only [State.WritersOk, forall_head, ← Option.mem_def]
  decide

theorem test_meets_EveryStepKeepsRoomForAnswers :
    busy.RingsOk ∧ step { busy with pending := [.frameStart .a] } = .next (after (.frameStart .a) busy) := by
  refine ⟨?_, rfl⟩
  simp only [State.RingsOk]
  decide

theorem test_meets_EveryStepKeepsCallupLists :
    busy.ListsOk ∧ step { busy with pending := [.frameStart .a] } = .next (after (.frameStart .a) busy) := by
  refine ⟨?_, rfl⟩
  simp only [State.ListsOk, forall_head, ← Option.mem_def]
  decide

theorem test_meets_EveryStepKeepsTourRuntimes :
    busy.ToursOk ∧ step { busy with pending := [.frameStart .a] } = .next (after (.frameStart .a) busy) :=
  ⟨busy_toursOk, rfl⟩

/-! #### Commits and heads -/

/-- `busy` with a command arriving and head A STOPPED without a commit. -/
def stoppedA : State :=
  asked ((busy.setHead .a HeadRecord.reset).setDir .a { working := newWall (some 2), live := oldWall, commit := none })

theorem test_meets_CommitOnStoppedHead :
    stoppedA.Ready ∧ plain.clean = true ∧ stoppedA.HeadsOk ∧ stoppedA.ToursOk
    ∧ (stoppedA.head .a).state = .stopped := by
  refine ⟨by simp only [State.Ready]; decide, by decide, ?_, toursOk_of_heads (by decide) (by decide),
    by decide⟩
  simp only [State.HeadsOk, forall_head]
  decide

/-- Each with no commit, an ANSWERED one and an UNANSWERED one. -/
theorem test_meets_CommitDeferredOnDrawingHead_and_CancelWithdrawsPendingCommit :
    ∀ c ∈ [none, some commit41, some { commit41 with answered := false }],
      (asked (wall c)).Ready ∧ plain.clean = true ∧ ((asked (wall c)).head .a).state ≠ .stopped
      ∧ ((asked (wall c)).dir .a).commit = c := by
  simp only [State.Ready]
  decide

theorem test_meets_HeadStartPaletteAndBackground :
    ready.Ready ∧ plain.clean = true ∧ (ready.head .a).state = .stopped
    ∧ (asked (wall none)).Ready ∧ ((asked (wall none)).head .a).state ≠ .stopped := by
  simp only [State.Ready]
  decide

/-- `busy` with a command arriving, head A's commit and whether it has a frame in flight as given. -/
def drawing (commit : Option CommitRecord) (inFlight : Bool) : State :=
  asked ((busy.setDir .a { busy.dir .a with commit }).setHead .a { busy.head .a with inFlight, sending := true })

theorem drawing_toursOk :
    (drawing none false).ToursOk ∧ (drawing none true).ToursOk ∧ (drawing (some commit42) false).ToursOk :=
  ⟨toursOk_of_heads (by decide) (by decide), toursOk_of_heads (by decide) (by decide),
    toursOk_of_heads (by decide) (by decide)⟩

/-- Head A RUNNING in a frame, and between frames with and without a commit; head B STOPPING. -/
theorem test_meets_HeadStopByState :
    (∀ c ∈ [none, some commit42], ∀ fly, (drawing c fly).Ready ∧ ((drawing c fly).head .a).state = .running
      ∧ ((drawing c fly).head .a).inFlight = fly ∧ ((drawing c fly).dir .a).commit = c)
    ∧ ((drawing none false).head .b).state ≠ .running ∧ (drawing none false).ToursOk
    ∧ (drawing none true).ToursOk ∧ (drawing (some commit42) false).ToursOk := by
  refine ⟨?_, by decide, drawing_toursOk⟩
  simp only [State.Ready]
  decide

/-- Head B STOPPING, head A in a frame, head A between frames. -/
theorem test_meets_FrameStartLatchesAndClaims :
    (busy.head .b).state ≠ .running ∧ ((drawing none true).head .a).inFlight = true
    ∧ ((drawing none false).head .a).state = .running ∧ ((drawing none false).head .a).inFlight = false
    ∧ ((drawing none false).dir .a).commit = none := by decide

theorem test_meets_FrameStartAppliesPendingCommit :
    busy.ToursOk ∧ (busy.head .a).state = .running ∧ (busy.head .a).inFlight = false
    ∧ (busy.dir .a).commit = some commit42 := ⟨busy_toursOk, by decide, by decide, by decide⟩

/-- Head B with commit 42 pending as well. -/
def stoppingB : State := busy.setDir .b { busy.dir .a with live := .empty }

/-- STOPPED; no frame in flight; RUNNING; STOPPING without and with a commit. -/
theorem test_meets_FrameEndReleasesClaims :
    ((stoppedA.head .a).state = .stopped ∧ stoppedA.ToursOk)
    ∧ ((busy.head .a).inFlight = false ∧ busy.ToursOk)
    ∧ (((drawing none true).head .a).inFlight = true ∧ ((drawing none true).head .a).state = .running
      ∧ (drawing none true).ToursOk)
    ∧ ((busy.head .b).inFlight = true ∧ (busy.head .b).state = .stopping ∧ (busy.dir .b).commit = none)
    ∧ ((stoppingB.head .b).inFlight = true ∧ (stoppingB.head .b).state = .stopping
      ∧ (stoppingB.dir .b).commit = some commit42 ∧ stoppingB.ToursOk) := by
  refine ⟨⟨by decide, test_meets_CommitOnStoppedHead.2.2.2.1⟩, ⟨by decide, busy_toursOk⟩,
    ⟨by decide, by decide, drawing_toursOk.2.1⟩, by decide,
    ⟨by decide, by decide, by decide, toursOk_of_heads (by decide) (by decide)⟩⟩

/-! #### Sources and pages -/

/-- S3 LOST on IN3, its loss timer run out. -/
def lost3 : State := ready.setSource 3 { sourceIn 3 .lost (some .s625) with lossTimer := some 0 }

/-- Ends of the ranges of h_start, v_start and the lock parameters; IN3 owned by S3 and free for it. -/
theorem test_meets_SourceCommandsAndLossExpiry :
    lost3.Ready ∧ plain.clean = true
    ∧ ((3 : SourceId) ≠ 4 ∧ (lost3.source 3).state ≠ .off ∧ (lost3.source 3).port = 3
      ∧ (∀ j : SourceId, j < 3 → j ≠ 4 → (lost3.source j).state ≠ .off → (lost3.source j).port ≠ 3))
    ∧ (∀ k : SourceId, k ≠ 3 → (lost3.source k).state ≠ .off → (lost3.source k).port ≠ 3)
    ∧ (16 ≤ 16 ∧ 16 % 2 = 0 ∧ 15 ≤ 15)
    ∧ (lost3.source 4).state = .off ∧ (lost3.source 3).state ≠ .off
    ∧ (2 ≤ 2 ∧ 2 ≤ 15 ∧ 2 ≤ 31 ∧ 20 ≤ 20 ∧ 20 ≤ 1000 ∧ 20 % 20 = 0)
    ∧ (2 ≤ 15 ∧ 15 ≤ 15 ∧ 2 ≤ 31 ∧ 31 ≤ 31 ∧ 1000 ≤ 1000 ∧ 1000 % 20 = 0)
    ∧ (lost3.source 3).lossTimer = some 0 ∧ (lost3.source 4).lossTimer ≠ some 0 := by
  simp only [State.Ready]
  decide

theorem fieldGood_auto {r : SourceRecord} {f : FieldInProgress} (auto : r.expect = .auto)
    (rest : f.wellFormed = true ∧ r.lastBit ≠ some f.bit
      ∧ ((240 ≤ f.lines ∧ f.lines ≤ 244) ∨ (286 ≤ f.lines ∧ f.lines ≤ 290))
      ∧ (r.state = .locked ∨ r.state = .unstable → r.standard = measured f.lines)) : FieldGood r f := by
  refine ⟨rest.1, rest.2.1, rest.2.2.1, ?_⟩
  split
  · exact rest.2.2.2 ‹_›
  · rw [auto]; nofun

theorem not_fieldGood_of_lines {r : SourceRecord} {f : FieldInProgress}
    (lines : ¬ ((240 ≤ f.lines ∧ f.lines ≤ 244) ∨ (286 ≤ f.lines ∧ f.lines ≤ 290))) : ¬ FieldGood r f :=
  fun good => lines good.2.2.1

/-- S3 in a state, its last field bit 1, with a writer on page 1, and a top field of `lines` lines. -/
def ending (state : SourceState) (lines : Nat) : State :=
  (judging { sourceIn 3 state (some (if lines ≤ 244 then .s525 else .s625)) with
      goodRun := 3, badRun := 7, candidate := some .s625, lastBit := some true } false lines).setPage 3
    { PageTable.reset with newest := some 0, writer := some { page := 1, height := 576, top := none } }

/-- The field that `ending` judges. -/
def judged (lines : Nat) : FieldInProgress := { bit := false, lines, wellFormed := true }

theorem test_meets_FieldVerdictMovesTheLockState :
    (∀ st ∈ [SourceState.searching, .locked, .unstable, .lost], ∀ n ∈ [239, 240, 244, 245, 285, 286, 290, 291],
      (ending st n).owner 3 = some 3 ∧ ((ending st n).source 3).lineOpen = false
      ∧ ((ending st n).source 3).field = some (judged n) ∧ ((ending st n).source 3).state = st)
    ∧ (0xAB : Byte).getLsbD 5 = true
    ∧ [239, 240, 244, 245, 285, 286, 290, 291].map measured
      = [none, some .s525, some .s525, none, none, some .s625, some .s625, none]
    ∧ (∀ st ∈ [SourceState.searching, .locked, .unstable, .lost], ∀ n ∈ [240, 244, 286, 290],
      FieldGood ((ending st n).source 3) (judged n))
    ∧ ∀ st ∈ [SourceState.searching, .locked, .unstable, .lost], ∀ n ∈ [239, 245, 285, 291],
      ¬ FieldGood ((ending st n).source 3) (judged n) := by
  refine ⟨by decide, by decide, by decide, fun st hst n hn => fieldGood_auto rfl ?_, fun st _ n hn => not_fieldGood_of_lines ?_⟩
  · revert st n; decide
  · revert n; decide

/-- With the lock count 4 and the unstable limit 8: a lock and no lock, a relock and a loss. -/
theorem test_meets_FieldVerdict_thresholds :
    State.reset.params = ⟨4, 8, 100⟩
    ∧ ((after blankOn3 (ending .searching 290)).source 3).state = .locked
    ∧ ((after blankOn3 (ending .searching 240)).source 3).state = .searching
    ∧ ((after blankOn3 (ending .unstable 290)).source 3).state = .locked
    ∧ ((after blankOn3 (ending .unstable 291)).source 3).state = .lost
    ∧ ((after blankOn3 ((ending .unstable 291).setSource 3
        { (ending .unstable 291).source 3 with badRun := 6 })).source 3).state = .unstable := by
  decide +kernel

/-- The page table's clauses: left LOCKED and UNSTABLE; relocked; top field; bottom field good and bad. -/
def bottomEnding (top : Option Bool) (lines : Nat) : State :=
  (judging { sourceIn 3 .locked (some .s625) with lastBit := some false } true lines).setPage 3
    { PageTable.reset with newest := some 0, writer := some { page := 1, height := 576, top } }

theorem test_meets_PageTableAtFieldEnd :
    exec blankOn3 (ending .unstable 291) = .next (after blankOn3 (ending .unstable 291))
    ∧ ¬ Written ((after blankOn3 (ending .unstable 291)).source 3).state
    ∧ (let s := (ending .searching 290).setPage 3 { PageTable.reset with newest := some 0 }
      Written ((after blankOn3 s).source 3).state ∧ (s.source 3).state = .searching
      ∧ (s.page 3).writer = none)
    ∧ Written ((after blankOn3 (ending .locked 290)).source 3).state
    ∧ Written ((ending .locked 290).source 3).state
    ∧ (let s := (ending .locked 290).setPage 3 PageTable.reset
      Written ((after blankOn3 s).source 3).state ∧ Written (s.source 3).state ∧ (s.page 3).writer = none)
    ∧ (judged 290).bit = ((ending .locked 290).source 3).fieldSwap
    ∧ ((ending .locked 290).page 3).writer = some { page := 1, height := 576, top := none }
    ∧ (true ≠ ((bottomEnding (some true) 286).source 3).fieldSwap
      ∧ Written ((after blankOn3 (bottomEnding (some true) 286)).source 3).state
      ∧ FieldGood ((bottomEnding (some true) 286).source 3) { bit := true, lines := 286, wellFormed := true })
    ∧ (Written ((after blankOn3 (bottomEnding (some true) 285)).source 3).state
      ∧ ¬ FieldGood ((bottomEnding (some true) 285).source 3)
        { bit := true, lines := 285, wellFormed := true }) := by
  refine ⟨rfl, ?_, ?_, ?_, ?_, ?_, ?_, ?_, ⟨?_, ?_, fieldGood_auto rfl ?_⟩, ?_, not_fieldGood_of_lines ?_⟩
  all_goals try simp only [Written]
  all_goals decide +kernel

/-- The black fill: 286 of 288 lines came, with v_start 0; a byte outside the two lines left; no writer. -/
theorem test_meets_PageTableAtFieldEnd_fill :
    (ending .locked 286).StoreOk
    ∧ ((ending .locked 286).page 3).writer = some { page := 1, height := 576, top := none }
    ∧ (286 < 576 / 2 ∧ 286 ≤ 286 + ((ending .locked 286).source 3).vStart) ∧ 287 < 576 / 2
    ∧ (∀ n, n < 288 → 286 ≤ n + 0 → 0 < lineAddress 3 1 (2 * n))
    ∧ ((judging { sourceIn 3 .locked (some .s625) with lastBit := some true } false 288).page 3).writer = none
    ∧ codeFree [] = true := by
  simp only [State.StoreOk]
  refine ⟨by decide, by decide, by decide, by decide, fun n _ _ => ?_, by decide, by decide⟩
  simp only [lineAddress, pageBase, Config.pageBytes, Config.lineBytes]
  omega

/-- IN3 of S3 after a vertical-blank code; pages 0 newest and 1 held by head B. -/
def starting (st : SourceState) : State :=
  (((idle.setSource 3 { sourceIn 3 st (some .s625) with sawBlank := true }).setPage 3
    { PageTable.reset with newest := some 0 }).setHead .b
    { HeadRecord.reset with state := .running, inFlight := true
                            claims := (Table.fill 16 none).set 3 (some 1) })

theorem test_meets_FieldStartBeginsAWriter :
    State.reset.owner 3 = none
    ∧ (∀ st ∈ [SourceState.searching, .locked],
      (starting st).owner 3 = some 3 ∧ ((starting st).source 3).lineOpen = false
      ∧ ((starting st).source 3).sawBlank = true ∧ ((starting st).source 3).field = none)
    ∧ (0x80 : Byte).getLsbD 5 = false ∧ (0x80 : Byte).getLsbD 4 = false
    ∧ (0xC0 : Byte).getLsbD 5 = false ∧ (0xC0 : Byte).getLsbD 4 = false
    ∧ (0xC0 : Byte).getLsbD 6 ≠ ((starting .locked).source 3).fieldSwap
    ∧ (0x80 : Byte).getLsbD 6 = ((starting .locked).source 3).fieldSwap
    ∧ ¬ Written ((starting .searching).source 3).state ∧ Written ((starting .locked).source 3).state
    ∧ ((starting .locked).page 3).newest ≠ some 2 ∧ (∀ hd, (starting .locked).holds hd 3 2 = false)
    ∧ (∀ q : PageId, q < 2 →
      ((starting .locked).page 3).newest = some q ∨ ∃ hd, (starting .locked).holds hd 3 q = true)
    ∧ codeFree [255, 0, 255] = true
    ∧ (let r := (judging (sourceIn 3 .locked (some .s625)) false 0).source 3
       r.sawBlank = false ∧ r.field ≠ none ∧ r.lineOpen = false)
    ∧ ((0x90 : Byte).getLsbD 5 = false ∧ (0x90 : Byte).getLsbD 4 = true) ∧ (0xAB : Byte).getLsbD 5 = true := by
  refine ⟨by decide, by decide, by decide, by decide, by decide, by decide, by decide, by decide, ?_, ?_,
    by decide, fun hd => by cases hd <;> decide, ?_, by decide, by decide, by decide, by decide⟩
  · simp only [Written]; decide
  · simp only [Written]; decide
  · intro q hq
    match q with
    | 0 => exact .inl (by decide)
    | 1 => exact .inr ⟨.b, by decide⟩
    | 2 => exact absurd hq (by decide)
    | 3 => exact absurd hq (by decide)

/-- S0, with v_start 15, h_start 16 and a field of `lines` lines so far, at S525. -/
def storing (lines : Nat) (writer : Option Writer) : State :=
  (idle.setSource 0 { sourceIn 0 .locked (some .s525) with
      hStart := 16, vStart := 15, lineOpen := true
      field := some { bit := false, lines, wellFormed := true } }).setPage 0 { PageTable.reset with writer }

/-- The first and the last line with a place, the lines before and after, and no writer. -/
theorem test_meets_ActiveLineStoredAtItsPlace :
    let w : Writer := { page := 0, height := 480, top := none }
    (∀ n ∈ [14, 15, 254, 255, 289], ∀ o ∈ [none, some w],
      (storing n o).StoreOk ∧ (storing n o).SourcesOk ∧ (storing n o).owner 0 = some 0
      ∧ ((storing n o).source 0).lineOpen = true
      ∧ ((storing n o).source 0).field = some { bit := false, lines := n, wellFormed := true } ∧ n < 290
      ∧ ((storing n o).page 0).writer = o)
    ∧ (0x90 : Byte).getLsbD 5 = false ∧ (0x90 : Byte).getLsbD 4 = true
    ∧ (15 ≤ 15 ∧ 15 - 15 < w.height / 2) ∧ (15 ≤ 254 ∧ 254 - 15 < w.height / 2)
    ∧ 14 < 15 ∧ w.height / 2 ≤ 255 - 15
    ∧ (List.replicate 1440 (1 : Byte)).length = 1440 := by
  simp only [State.StoreOk, State.SourcesOk]
  refine ⟨by decide +kernel, by decide, by decide, by decide, by decide, by decide, by decide,
    List.length_replicate ..⟩

/-- A line open in no field; the line that follows 290 lines, a code with the vertical-blank flag and the
state it leaves. -/
theorem test_meets_ActiveLineStoredAtItsPlace_ends :
    (((idle.setSource 0 { sourceIn 0 .searching none with lineOpen := true }).source 0).field = none
      ∧ ((idle.setSource 0 { sourceIn 0 .searching none with lineOpen := true }).source 0).lineOpen = true)
    ∧ (storing 290 none).StoreOk ∧ (storing 290 none).SourcesOk ∧ (storing 290 none).owner 0 = some 0
    ∧ ((storing 290 none).source 0).lineOpen = true
    ∧ ((storing 290 none).source 0).field = some { bit := false, lines := 290, wellFormed := true }
    ∧ (0xAB : Byte).getLsbD 5 = true
    ∧ (∀ u, exec (.timingCode 0 0xAB []) u = .next (after (.timingCode 0 0xAB []) u))
    ∧ (exec (.timingCode 0 0x90 []) (storing 290 none)
        = .next (after (.timingCode 0 0x90 []) (storing 290 none))
      ∧ ((after (.timingCode 0 0x90 []) (storing 290 none)).source 0).field = none
      ∧ ((after (.timingCode 0 0x90 []) (storing 290 none)).source 0).state = .unstable) := by
  refine ⟨by decide, ?_, ?_, by decide, by decide, by decide, by decide, fun _ => rfl, rfl, by decide +kernel,
    by decide +kernel⟩
  · simp only [State.StoreOk]; decide
  · simp only [State.SourcesOk]; decide

/-! #### Masks and tours -/

/-- The corner of the frame, one pair and one line past it, and each mask kind's last parameters. -/
theorem test_meets_MaskSetAndClear :
    ready.Ready ∧ plain.clean = true
    ∧ (718 ≤ 718 ∧ 718 % 2 = 0 ∧ 575 ≤ 575 ∧ 2 ≤ 2 ∧ 718 + 2 ≤ 720 ∧ 1 ≤ 1 ∧ 575 + 1 ≤ 576)
    ∧ (720 < 718 + 4 ∧ 576 < 575 + 2 ∧ 4 ≤ 720 ∧ 4 % 2 = 0 ∧ 2 ≤ 576)
    ∧ (∀ k ∈ [MaskKind.solid 15, .mosaic 8, .mosaic 16, .darken 1, .darken 4],
      maskParameterInRange (codeMaskKind k).1 (codeMaskKind k).2 = true)
    ∧ operandsInRange (.maskSet plain ⟨16, 0, 0, 0, 0, 0, 2, 1⟩) = false
    ∧ operandsInRange (.maskSet plain ⟨0, 0, 2, 5, 0, 0, 2, 1⟩) = false
    ∧ (16 ≤ 16 ∨ (4 ≤ 0 ∧ 0 ≠ 255)) ∧ (16 ≤ 0 ∨ (4 ≤ 4 ∧ 4 ≠ 255)) := by
  simp only [State.Ready]
  decide

/-- Tours of 1 and of 12 steps with dwells 1 and 255; T3 bound and defined, T2 not bound, T2 EMPTY. -/
theorem test_meets_TourSetAndRetire :
    let s := asked (touring .lost .lost ⟨3, 2000, .held⟩)
    s.Ready ∧ plain.clean = true
    ∧ (∀ t ∈ [tourOf [15] 255 true, tourOf (List.replicate 12 0) 1 false],
      1 ≤ t.steps.length ∧ t.steps.length ≤ 12 ∧ ∀ st ∈ t.steps, 1 ≤ st.dwell ∧ st.dwell ≤ 255)
    ∧ s.tour 2 = none ∧ (s.tour 3).isSome = true ∧ 1 ≤ s.bindings 3 ∧ s.bindings 2 = 0 := by
  simp only [State.Ready]
  decide

/-- `touring` with a second, untouring tile in slot 5. -/
def touringTwo (r : Runtime) : State :=
  asked ((touring .lost .locked r).setDir .a
    { working := .empty, commit := none
      live := bankOf [(4, tileAt 0 0 360 288 2 0 none (some 3)), (5, tile2)] })

theorem touringTwo_toursOk : (touringTwo ⟨3, 0, .running⟩).ToursOk := toursOk_of_heads (by decide) (by decide)

theorem test_meets_TourControlActs :
    let s := touringTwo ⟨3, 0, .running⟩
    s.Ready ∧ plain.clean = true ∧ s.ToursOk ∧ s.liveTile .a 31 = none
    ∧ s.liveTile .a 5 = some tile2 ∧ tile2.tour = none
    ∧ s.liveTile .a 4 = some (tileAt 0 0 360 288 2 0 none (some 3)) := by
  refine ⟨?_, by decide, touringTwo_toursOk, by decide, by decide, by decide, by decide⟩
  simp only [State.Ready]
  decide

/-- A counting runtime with no time left; one with time left, one HELD, one suspended; none. -/
theorem test_meets_DwellExpiryMovesTheRuntime :
    let s := touringTwo ⟨3, 0, .running⟩
    s.ToursOk ∧ s.touring .a 4 = some (tour3, ⟨3, 0, .running⟩) ∧ (s.head .a).state ≠ .stopped
    ∧ s.list .a 4 = []
    ∧ (touringTwo ⟨3, 1, .running⟩).touring .a 4 = some (tour3, ⟨3, 1, .running⟩)
    ∧ (touringTwo ⟨3, 0, .held⟩).touring .a 4 = some (tour3, ⟨3, 0, .held⟩)
    ∧ ((s.setHead .a HeadRecord.reset).head .a).state = .stopped
    ∧ (s.setList .a 4 [⟨9, 0, 0, .latched⟩]).list .a 4 ≠ [] ∧ s.touring .a 5 = none :=
  ⟨touringTwo_toursOk, by decide⟩

/-! #### Lines, rules and lists -/

/-- AL2 ACTIVE and IDLE, debounce 0 and 255. -/
theorem test_meets_LineSetReconfigures :
    (asked standing).Ready ∧ plain.clean = true ∧ 0 ≤ 255 ∧ 255 ≤ 255
    ∧ ((asked standing).line 2).state = .active ∧ ((asked standing).line 3).state = .idle
    ∧ activeLevel .activeLow ((asked standing).line 2).rawHigh = true
    ∧ activeLevel .activeHigh ((asked standing).line 2).rawHigh = false
    ∧ ((after (.lineSet plain 2 1 1 0) (asked standing)).line 2).state = .active
    ∧ ((after (.lineSet plain 2 1 0 0) (asked standing)).line 2).state = .idle := by
  simp only [State.Ready]
  decide

/-- A change at the sample and one beside it; a line whose sample is taken: the same level, a line not
enabled, debounce 5 and 0. An expiry without an event, with a release and with an assertion. -/
theorem test_meets_LevelChangeAndDebounceExpiry :
    let s := alarms fullList4 105 .idle .active .idle
    ((s.setLine 2 { s.line 2 with sampled := true }).line 2).sampled = true ∧ (s.line 2).sampled = false
    ∧ (s.line 2).pinHigh = (s.line 2).rawHigh ∧ (s.line 2).enabled = true ∧ (s.line 2).debounce = 0
    ∧ (s.line 3).enabled = false ∧ true ≠ (s.line 3).rawHigh
    ∧ (bouncing line2).line 2 = line2 ∧ line2.enabled = true ∧ line2.debounce ≠ 0 ∧ true ≠ line2.rawHigh
    ∧ (s.line 2).timer = some 0 ∧ ((bouncing { line2 with timer := none }).line 2).timer ≠ some 0
    ∧ ((s.line 2).state = .idle ∧ activeLevel (s.line 2).polarity (s.line 2).rawHigh = true)
    ∧ ((s.line 1).state = .active ∧ activeLevel (s.line 1).polarity (s.line 1).rawHigh = true)
    ∧ (let u := s.setLine 1 { s.line 1 with rawHigh := false }
       (u.line 1).state = .active ∧ activeLevel (u.line 1).polarity (u.line 1).rawHigh = false)
    ∧ (let u := s.setLine 2 { s.line 2 with rawHigh := false }
       (u.line 2).state = .idle ∧ activeLevel (u.line 2).polarity (u.line 2).rawHigh = false) := by decide

/-- Rules of AL2 in `alarms`: C5 does not name it; C4's tile is FREE; the list is full against C4. -/
theorem test_meets_HearsAssertion :
    let s := alarms fullList4 105 .idle .idle .idle
    let low := s.setRule 4 (some ⟨some 2, .a, 2, 11, 0, 15, true⟩)
    (∀ r ∈ s.rule 5, r.line ≠ some 2)
    ∧ s.rule 4 = some ⟨some 2, .a, 2, 11, 6, 15, true⟩ ∧ (s.liveTile .a 2).isSome = true
    ∧ (s.setDir .a { working := .empty, live := .empty, commit := none }).liveTile .a 2 = none
    ∧ low.rule 4 = some ⟨some 2, .a, 2, 11, 0, 15, true⟩ := by decide

theorem test_meets_HearsAssertion_full :
    FullAgainst .asserted 5 ⟨some 2, .a, 2, 12, 0, 15, true⟩ (alarms fullList4 105 .idle .idle .idle) := by
  simp only [FullAgainst, ← Option.mem_def]
  decide

theorem test_meets_FullAgainst :
    let s := alarms fullList4 105 .idle .active .active
    FullAgainst (.holding 60000) 5 ⟨none, .a, 2, 12, 1, 60, false⟩ s := by
  simp only [FullAgainst, ← Option.mem_def]
  decide

theorem test_meets_Fires_refresh :
    let s := alarms fullList4 105 .idle .active .active
    ∃ t, Fires .asserted 2 ⟨some 1, .a, 2, 9, 5, 0, false⟩ s t 1 :=
  ⟨_, .refresh [⟨4, 6, 104, .asserted⟩] ⟨2, 5, 102, .asserted⟩
    [⟨3, 5, 103, .asserted⟩, ⟨1, 2, 101, .holding 8000⟩] (by decide) rfl (by decide)⟩

theorem test_meets_Fires_insert :
    let s := alarms [⟨4, 6, 104, .latched⟩] 106 .idle .idle .idle
    ∃ t, Fires (.holding 60000) 5 ⟨none, .a, 2, 12, 1, 60, false⟩ s t 1 :=
  ⟨_, .insert (by decide) (by decide)⟩

theorem test_meets_Fires_evict :
    let s := alarms fullList 104 .idle .active .active
    ∃ t, Fires .asserted 4 ⟨some 2, .a, 2, 11, 6, 15, true⟩ s t 0 :=
  ⟨_, .evict (by decide) [⟨2, 5, 102, .asserted⟩, ⟨3, 5, 103, .asserted⟩, ⟨1, 2, 101, .holding 8000⟩]
    ⟨5, 1, 100, .holding 46000⟩ (by decide) rfl (by decide)⟩

theorem test_meets_RuleSetAndRetire :
    (asked standing).Ready ∧ plain.clean = true ∧ 7 ≤ 7 ∧ 255 ≤ 255 ∧ (asked standing).rule 31 = none
    ∧ (asked standing).rule 6 = some ⟨some 2, .a, 1, 11, 5, 20, false⟩ := by
  simp only [State.Ready]
  decide

/-- Rules: EMPTY; hold 0 without latch and not ACTIVE; FREE target; ACTIVE, latching, holding. -/
theorem test_meets_CallupTriggerFires :
    let s := asked (alarms fullList 104 .idle .active .idle)
    s.Ready ∧ plain.clean = true ∧ s.rule 0 = none
    ∧ s.rule 2 = some ⟨some 1, .a, 2, 9, 5, 0, false⟩ ∧ (s.line 1).state = .active
    ∧ ((asked (alarms [] 0 .idle .idle .idle)).line 1).state ≠ .active
    ∧ s.rule 4 = some ⟨some 2, .a, 2, 11, 6, 15, true⟩ ∧ (s.line 2).state ≠ .active
    ∧ s.rule 5 = some ⟨none, .a, 2, 12, 1, 60, false⟩ ∧ (s.liveTile .a 2).isSome = true
    ∧ (s.setDir .a { working := .empty, live := .empty, commit := none }).liveTile .a 2 = none := by
  simp only [State.Ready]
  decide

theorem test_meets_CallupClearRemovesEntries :
    ready.Ready ∧ plain.clean = true ∧ (2 ≤ 2 ∨ 32 ≤ 0 ∨ (32 ≤ 0 ∧ 0 ≠ 255))
    ∧ (2 ≤ 0 ∨ 32 ≤ 32 ∨ (32 ≤ 0 ∧ 0 ≠ 255)) ∧ (2 ≤ 0 ∨ 32 ≤ 0 ∨ (32 ≤ 32 ∧ 32 ≠ 255)) := by
  simp only [State.Ready]
  decide

/-- The refused operands of the mask, tour, cancel and trigger commands: a reserved field, and the first
value past each range. -/
theorem test_meets_refusal_clauses :
    unclean.clean = false ∧ (plain.clean = false ∨ 2 ≤ 2) ∧ (plain.clean = false ∨ 8 ≤ 8)
    ∧ (plain.clean = false ∨ 32 ≤ 32)
    ∧ operandsInRange (.tourSet plain ⟨8, 1, 0, [(0, 1)]⟩) = false
    ∧ operandsInRange (.tourSet plain ⟨0, 0, 0, []⟩) = false
    ∧ operandsInRange (.tourSet plain ⟨0, 13, 0, List.replicate 13 (0, 1)⟩) = false
    ∧ operandsInRange (.tourSet plain ⟨0, 1, 2, [(0, 1)]⟩) = false
    ∧ operandsInRange (.tourSet plain ⟨0, 1, 0, [(16, 1)]⟩) = false
    ∧ operandsInRange (.tourSet plain ⟨0, 1, 0, [(0, 0)]⟩) = false := by decide

theorem test_meets_HoldExpiryRemovesTheEntry :
    let s := alarms [⟨3, 5, 103, .holding 0⟩, ⟨1, 2, 105, .asserted⟩] 106 .active .idle .idle
    s.rule 0 = none ∧ s.rule 3 = some ⟨some 1, .a, 2, 10, 5, 30, false⟩
    ∧ (∀ e ∈ s.list .a 2, e.rule = 1 → e.state ≠ .holding 0)
    ∧ s.list .a 2 = [] ++ ⟨3, 5, 103, .holding 0⟩ :: [⟨1, 2, 105, .asserted⟩]
    ∧ ∀ f ∈ ([] : List Entry) ++ [⟨1, 2, 105, .asserted⟩], f.rule ≠ 3 := by decide

/-! #### Queries, transfers and the register window -/

/-- Max counts 0 and 1; a commit pending and none; a bank with a rank order. -/
theorem test_meets_QueriesBegin :
    (asked busy).Ready ∧ plain.clean = true ∧ bufferAligned ⟨0, 0⟩ = true ∧ bufferAligned ⟨4294967280, 1⟩ = true
    ∧ (∀ name ∈ [BankName.working, .pending, .live], ((asked busy).bank .a name).isSome = true)
    ∧ ((asked busy).dir .b).commit = none
    ∧ (sourceRecords (asked busy)).take 0 = [] ∧ (sourceRecords (asked busy)).take 1 ≠ [] := by
  simp only [State.Ready]
  decide

theorem test_meets_QueriesBegin_rankOk :
    (busy.dir .a).live.RankOk ∧ (busy.dir .a).live.order[1]? = some 0
    ∧ (busy.dir .a).live.slots.get 0 = some (tileAt 0 0 720 576 1 0 (some 0) none) := by
  simp only [Bank.RankOk]
  decide

/-- The last record of the run, and one of eleven; no result write on the path. -/
theorem test_meets_ResultWriteReportsARecord :
    idle.port.path ≠ some .resultWrite
    ∧ reading.port.path = some .resultWrite ∧ reading.port.query = some lastRecord
    ∧ lastRecord.left = (lastRecord.left.headD (.plain [])) :: []
    ∧ (idle.setPort querying).port.path = some .resultWrite
    ∧ (idle.setPort querying).port.query.map (fun q => q.left)
      = some (.plain [1, 2] :: List.replicate 10 (.plain [1, 2])) := by decide

def oneQueued : Port :=
  { idle.port with path := some .completionWrite
                   queue := [{ tag := 17, code := 0x23, result := .ok, detail := 0, detail2 := 0 }] }

theorem test_meets_CompletionWriteAdvances :
    idle.port.path ≠ some .completionWrite ∧ (idle.setPort oneQueued).port.path = some .completionWrite
    ∧ (idle.setPort oneQueued).port.queue
      = { tag := 17, code := 0x23, result := .ok, detail := 0, detail2 := 0 } :: [] := by decide

/-- Nothing on the path, and each of the three transfers. -/
theorem test_meets_BusFaultByPhase :
    idle.RingsOk ∧ idle.port.path = none ∧ ready.RingsOk ∧ ready.port.path = some .fetch
    ∧ (idle.setPort querying).RingsOk ∧ (idle.setPort querying).port.path = some .resultWrite
    ∧ (idle.setPort oneQueued).RingsOk ∧ (idle.setPort oneQueued).port.path = some .completionWrite := by
  refine ⟨?_, by decide, ?_, by decide, ?_, by decide, ?_, by decide⟩
  all_goals simp only [State.RingsOk]; decide

/-- STOPPED with the largest rings and bases that fit them. -/
def stoppedPort : Port :=
  { idle.port with run := false, proc := .stopped, cmdSize := 1024, cplSize := 1024, cmdBase := 0xFFFF8000
                   cplBase := 0x4000 }

theorem test_meets_RunAndRestart :
    stoppedPort.proc = .stopped
    ∧ (stoppedPort.cmdSize ≠ 0 ∧ stoppedPort.cplSize ≠ 0
      ∧ stoppedPort.cmdBase.toNat % (32 * stoppedPort.cmdSize) = 0
      ∧ stoppedPort.cplBase.toNat % (16 * stoppedPort.cplSize) = 0)
    ∧ ¬ (Port.reset.cmdSize ≠ 0 ∧ Port.reset.cplSize ≠ 0 ∧ Port.reset.cmdBase.toNat % (32 * Port.reset.cmdSize) = 0
      ∧ Port.reset.cplBase.toNat % (16 * Port.reset.cplSize) = 0)
    ∧ Port.reset.proc = .stopped ∧ idle.port.proc = .idle ∧ ready.port.proc ≠ .stopped
    ∧ ready.port.proc ≠ .idle ∧ ({ idle.port with proc := .faulted } : Port).proc = .faulted
    ∧ idle.port.proc ≠ .faulted := by decide

/-- The smallest and the largest size; 0 and 2048; a queue that is not empty. -/
theorem test_meets_RingSizesTakenWhileStopped :
    let listed (v : Word) : Prop := v.toNat ∈ [16, 32, 64, 128, 256, 512, 1024]
    let s := idle.setPort stoppedPort
    idle.port.proc ≠ .stopped ∧ s.port.proc = .stopped ∧ listed 16 ∧ listed 1024 ∧ ¬ listed 0 ∧ ¬ listed 2048
    ∧ s.port.queue = [] ∧ s.reservations = 0
    ∧ ¬ (listed 16 ∧ (idle.setPort oneQueued).port.queue = [] ∧ (idle.setPort oneQueued).reservations = 0) := by
  decide

/-- 15 of 16 outstanding and 15 of 16 occupied: the last index taken, the first refused. -/
theorem test_meets_RingIndexWrites :
    let s := idle.setPort { fetching with cmdProducer := 15, cplWrite := 15 }
    s.RingsOk
    ∧ ((16 : Word).toNat < 2 * 16 ∧ (15 + 2 * 16 - 0) % (2 * 16) + (16 + 2 * 16 - 15) % (2 * 16) ≤ 16)
    ∧ 16 < (15 + 2 * 16 - 0) % (2 * 16) + ((17 : Word).toNat + 2 * 16 - 15) % (2 * 16)
    ∧ 2 * 16 ≤ (32 : Word).toNat
    ∧ ((15 : Word).toNat < 2 * 16
      ∧ (15 + 2 * 16 - (15 : Word).toNat) % (2 * 16) ≤ (15 + 2 * 16 - 0) % (2 * 16))
    ∧ (15 + 2 * 16 - 0) % (2 * 16) < (15 + 2 * 16 - (16 : Word).toNat) % (2 * 16) := by
  simp only [State.RingsOk]
  decide

/-- PORT_RESET; RUN set from IDLE and from STOPPED, taken and refused; RUN clear; RESTART while FAULTED and
not; part of a word, and an offset with no writable register; a fault record and none. -/
theorem test_meets_RegisterWindowWritesAndReads :
    (0x100 : Word).getLsbD 8 = true
    ∧ ((0x203 : Word).getLsbD 8 = false ∧ (0x203 : Word).getLsbD 9 = true ∧ (0x203 : Word).getLsbD 0 = true)
    ∧ ((0x001 : Word).getLsbD 8 = false ∧ (0x001 : Word).getLsbD 9 = false ∧ (0x001 : Word).getLsbD 0 = true)
    ∧ ((0x002 : Word).getLsbD 8 = false ∧ (0x002 : Word).getLsbD 9 = false ∧ (0x002 : Word).getLsbD 0 = false)
    ∧ idle.port.proc ≠ .stopped ∧ idle.port.proc ≠ .faulted ∧ stoppedPort.proc = .stopped
    ∧ Port.reset.proc = .stopped ∧ ({ idle.port with proc := .faulted } : Port).proc = .faulted
    ∧ (7 : BitVec 4) ≠ 15
    ∧ 0x038 ∉ [0x004, 0x010, 0x014, 0x018, 0x020, 0x024, 0x02C, 0x030, 0x034]
    ∧ idle.port.fault = none
    ∧ ({ idle.port with fault := some ⟨.targetAbort, .resultWrite, 0x2078⟩ } : Port).fault
      = some ⟨.targetAbort, .resultWrite, 0x2078⟩
    ∧ 0x03C ∉ [0x000, 0x004, 0x010, 0x014, 0x018, 0x01C, 0x020, 0x024, 0x028, 0x02C, 0x030, 0x034, 0x040,
      0x044, 0x048, 0x050, 0x060, 0x064, 0x068, 0x06C] := by decide

/-! #### Pictures -/

/-- Section 6.4: outside every region; in slot 0 over slot 1; in slot 1; in slot 2. -/
def masks5 : MaskSlots :=
  (((Table.fill 4 none).set 0 (some ⟨100, 50, 200, 100, .solid 2⟩)).set 1
    (some ⟨200, 100, 200, 200, .mosaic 16⟩)).set 2 (some ⟨0, 500, 720, 76, .darken 2⟩)

def latched : State :=
  idle.setHead .a { HeadRecord.reset with
    view := { FrameView.reset with masks := (Table.fill 16 none).set 5 (some masks5) } }

theorem test_meets_LatchedMaskGovernsTheSample :
    (latched.head .a).view.masks.get 5 = some masks5
    ∧ (∀ k, ∀ m ∈ masks5.get k, m.contains 500 20 = false)
    ∧ (∀ m ∈ masks5.get 0, m.contains 299 149 = true)
    ∧ (∀ m ∈ masks5.get 1, m.contains 399 299 = true)
    ∧ (∀ k' : MaskId, k' < 1 → ∀ m ∈ masks5.get k', m.contains 399 299 = false)
    ∧ (∀ m ∈ masks5.get 2, m.contains 719 575 = true)
    ∧ ∀ k' : MaskId, k' < 2 → ∀ m ∈ masks5.get k', m.contains 719 575 = false := by decide

/-- Head B of section 3.6 in frame 207, slot 1 over slot 4. -/
def frame207 : State := after (.frameStart .b) headB

/-- The background, where no tile is; a border, and a sample beside it; the tile at the back alone. -/
theorem test_meets_CompositionOfASample :
    (frame207.dir .b).live.order = [] ++ 1 :: [4] ∧ (frame207.dir .b).live.order = [1] ++ 4 :: []
    ∧ (∀ t ∈ frame207.liveTile .b 1, Covers t 480 65 470 ∧ Covers t 480 303 479 ∧ ¬ Covers t 480 63 470
      ∧ ¬ Covers t 480 304 479 ∧ ¬ Covers t 576 65 544 ∧ ¬ Covers t 480 65 480 ∧ ¬ Covers t 480 0 0)
    ∧ (∀ t ∈ frame207.liveTile .b 4, Covers t 480 0 0 ∧ Covers t 480 719 479)
    ∧ (frame207.liveTile .b 1).isSome = true ∧ (frame207.liveTile .b 4).isSome = true
    ∧ (frame207.head .b).view.shown.get 1 = some 9 ∧ (frame207.head .b).view.states.get 9 = some .lost
    ∧ (frame207.head .b).claims.get 9 = some 0 ∧ (frame207.head .b).view.states.get 8 = some .locked
    ∧ (after (.frameStart .a) (wall none)).liveTile .a 0 = some (tileAt 0 0 720 576 1 0 (some 0) none)
    ∧ ((after (.frameStart .a) (wall none)).head .a).claims.get 0 = none
    ∧ 720 = 8 * 90 ∧ (7 * 90 ≤ 719 ∧ 719 < (7 + 1) * 90) ∧ (0 * 90 ≤ 89 ∧ 89 < (0 + 1) * 90) := by
  refine ⟨by decide, by decide, ?_, ?_, by decide⟩
  all_goals simp only [Covers]; decide

theorem test_meets_TimingCodesAndOutputLines :
    (0xF0 : Byte).getLsbD 6 = (0x7F : Byte).getLsbD 6 ∧ (0xF0 : Byte).getLsbD 5 = (0x7F : Byte).getLsbD 5
    ∧ (0xF0 : Byte).getLsbD 4 = (0x7F : Byte).getLsbD 4
    ∧ codeFree [1, 255, 0, 255, 0] = true
    ∧ exec (.timingCode 3 0xAB [1]) idle = .next (after (.timingCode 3 0xAB [1]) idle)
    ∧ ((ready.head .a).inFlight = false ∧ (ready.head .a).sending = false)
    ∧ (((drawing none false).head .a).inFlight = false ∧ ((drawing none false).head .a).sending = true)
    ∧ (frame207.head .b).inFlight = true
    ∧ (21 < 22 ∧ 0 < 268 ∧ 267 < 268 ∧ 1439 < 1440) ∧ 22 ≤ 22 ∧ 25 ≤ 312 :=
  ⟨by decide, by decide, by decide, by decide, rfl, by decide, by decide, by decide, by decide, by decide⟩

end Sys2Proof.Tests
end

section
/-! PROOF. What the events outside the layout directory leave unchanged: the alarm side (lines, rules
firing, call-up lists), the video side (sources, pages, the SDRAM) and the tour engine. -/

namespace Sys2Proof.Machine

/-- `p` is the port `q` in everything but cause NOTICE. -/
def noticePort (p q : Port) : Port := { p with cause := { p.cause with notice := q.cause.notice } }

/-! ### The alarm side -/

/-- Only lines, call-up lists, the arrival counter, notices and cause NOTICE may differ. -/
def AlarmFrame (s t : State) : Prop :=
  t = { s with
    port := noticePort s.port t.port, lines := t.lines, lists := t.lists, arrival := t.arrival
    notices := t.notices }

namespace AlarmFrame

theorem refl (s : State) : AlarmFrame s s := rfl

theorem trans {s t u : State} (a : AlarmFrame s t) (b : AlarmFrame t u) : AlarmFrame s u := by
  unfold AlarmFrame at *
  rw [a] at b
  exact b

theorem foldl {α : Type} {f : State → α → State} (each : ∀ t x, AlarmFrame t (f t x)) (l : List α)
    (s : State) : AlarmFrame s (l.foldl f s) :=
  List.foldlRecOn l f (refl s) fun t a x _ => a.trans (each t x)

theorem dirs {s t : State} (a : AlarmFrame s t) : t.dirs = s.dirs :=
  (congrArg State.dirs a).trans rfl

theorem port {s t : State} (a : AlarmFrame s t) : t.port = noticePort s.port t.port :=
  congrArg State.port a

theorem raise {s t : State} (a : AlarmFrame s t) (k : NoticeKey) (v : NoticeValue) :
    AlarmFrame s (t.raise k v) := a.trans rfl

theorem setLine {s t : State} (a : AlarmFrame s t) (l : LineId) (r : LineRecord) :
    AlarmFrame s (t.setLine l r) := a.trans rfl

theorem setList {s t : State} (a : AlarmFrame s t) (h : Head) (slot : SlotId) (l : List Entry) :
    AlarmFrame s (t.setList h slot l) := a.trans rfl

theorem replaceList {s t : State} (a : AlarmFrame s t) (h : Head) (slot : SlotId) (l : List Entry) :
    AlarmFrame s (t.replaceList h slot l) := by
  unfold State.replaceList
  split
  · exact a.setList h slot l
  · exact (a.setList h slot l).raise _ _

end AlarmFrame

theorem raiseEvicted_alarmFrame (e : Option Entry) (s : State) : AlarmFrame s (s.raiseEvicted e) := by
  cases e <;> rfl

theorem fire_alarmFrame (c : FireCause) (n : RuleId) (r : Rule) (s : State) :
    AlarmFrame s (fire c n r s).1 := by
  unfold fire
  split
  · exact .refl s
  dsimp only
  split
  · exact (AlarmFrame.refl s).setList _ _ _
  split
  · exact .refl s
  · next l' evicted _ =>
      have counted : AlarmFrame s { s with arrival := s.arrival + 1 } := rfl
      exact (counted.trans (raiseEvicted_alarmFrame evicted _)).replaceList _ _ _

theorem fireByLine_alarmFrame (n : RuleId) (r : Rule) (s : State) :
    AlarmFrame s (fireByLine n r s) := by
  have fired := fire_alarmFrame .line n r s
  unfold fireByLine
  split
  · next e => rw [e] at fired; exact fired
  · next e => rw [e] at fired; exact fired.raise _ _
  · next e => rw [e] at fired; exact fired.raise _ _

theorem lineAsserts_alarmFrame (l : LineId) (s : State) : AlarmFrame s (lineAsserts l s) := by
  refine AlarmFrame.foldl (fun t n => ?_) _ s
  split
  · split
    · exact fireByLine_alarmFrame n _ t
    · exact .refl t
  · exact .refl t

theorem lineReleases_alarmFrame (l : LineId) (s : State) : AlarmFrame s (lineReleases l s) := by
  refine AlarmFrame.foldl (fun t n => ?_) _ s
  split
  · split
    · exact (AlarmFrame.refl t).replaceList _ _ _
    · exact .refl t
  · exact .refl t

theorem lineCompares_alarmFrame (l : LineId) (s : State) : AlarmFrame s (lineCompares l s) := by
  have set : ∀ r, AlarmFrame s (s.setLine l r) := (AlarmFrame.refl s).setLine l
  unfold lineCompares
  dsimp only
  split
  · exact (set _).trans (lineAsserts_alarmFrame l _)
  · exact (set _).trans (lineReleases_alarmFrame l _)
  · exact set _
  · exact set _

theorem startDebounce_alarmFrame (l : LineId) (s : State) : AlarmFrame s (startDebounce l s) := by
  unfold startDebounce
  dsimp only
  split
  · exact lineCompares_alarmFrame l s
  · exact (AlarmFrame.refl s).setLine l _

theorem takeSample_alarmFrame (l : LineId) (s : State) : AlarmFrame s (takeSample l s) := by
  have set : ∀ r, AlarmFrame s (s.setLine l r) := (AlarmFrame.refl s).setLine l
  unfold takeSample
  dsimp only
  split
  · exact .refl s
  split
  · exact (set _).trans (startDebounce_alarmFrame l _)
  · exact set _

theorem endMillisecond_alarmFrame (l : LineId) (s : State) : AlarmFrame s (endMillisecond l s) := by
  have set : ∀ r, AlarmFrame s (s.setLine l r) := (AlarmFrame.refl s).setLine l
  unfold endMillisecond
  dsimp only
  split
  · exact set _
  · exact (set _).trans (takeSample_alarmFrame l _)

theorem endAlarm_alarmFrame (l : LineId) (s : State) : AlarmFrame s (endAlarm l s) := by
  unfold endAlarm
  split
  · exact (lineReleases_alarmFrame l s).setLine l _
  · exact .refl s

/-- LINE_SET: the alarm ended, the new record, and its debounce where the line is enabled. -/
theorem lineSet_alarmFrame (l : LineId) (r : LineRecord) (s : State) :
    AlarmFrame s (if r.enabled then startDebounce l ((endAlarm l s).setLine l r)
      else (endAlarm l s).setLine l r) := by
  have set := (endAlarm_alarmFrame l s).setLine l r
  split
  · exact set.trans (startDebounce_alarmFrame l _)
  · exact set

theorem removeEntryOf_alarmFrame (n : RuleId) (s : State) : AlarmFrame s (removeEntryOf n s).1 := by
  unfold removeEntryOf
  split
  · exact (AlarmFrame.refl s).replaceList _ _ _
  · exact .refl s

/-- A millisecond after its count-down is the samples of the lines. -/
theorem tick_alarmFrame (s : State) : AlarmFrame (countDown s) (tick s) :=
  AlarmFrame.foldl (fun t l => endMillisecond_alarmFrame l t) _ _

/-! ### The video side -/

/-- Only sources, page tables, the SDRAM, notices and cause NOTICE may differ. -/
def VideoFrame (s t : State) : Prop :=
  t = { s with
    port := noticePort s.port t.port, sources := t.sources, pages := t.pages, store := t.store
    notices := t.notices }

namespace VideoFrame

theorem refl (s : State) : VideoFrame s s := rfl

theorem trans {s t u : State} (a : VideoFrame s t) (b : VideoFrame t u) : VideoFrame s u := by
  unfold VideoFrame at *
  rw [a] at b
  exact b

theorem foldl {α : Type} {f : State → α → State} (each : ∀ t x, VideoFrame t (f t x)) (l : List α)
    (s : State) : VideoFrame s (l.foldl f s) :=
  List.foldlRecOn l f (refl s) fun t a x _ => a.trans (each t x)

theorem dirs {s t : State} (a : VideoFrame s t) : t.dirs = s.dirs :=
  (congrArg State.dirs a).trans rfl

theorem port {s t : State} (a : VideoFrame s t) : t.port = noticePort s.port t.port :=
  congrArg State.port a

theorem setSource {s t : State} (a : VideoFrame s t) (i : SourceId) (r : SourceRecord) :
    VideoFrame s (t.setSource i r) := a.trans rfl

theorem setPage {s t : State} (a : VideoFrame s t) (i : SourceId) (r : PageTable) :
    VideoFrame s (t.setPage i r) := a.trans rfl

theorem changeSource {s t : State} (a : VideoFrame s t) (i : SourceId) (r : SourceRecord) :
    VideoFrame s (t.changeSource i r) := by
  unfold State.changeSource
  split
  · exact a.setSource i r
  · exact (a.setSource i r).trans rfl

end VideoFrame

theorem fillField_videoFrame (i : SourceId) (top : Bool) (k : Nat) (s : State) :
    VideoFrame s (fillField i top k s) := by
  unfold fillField
  split <;> rfl

theorem storeActiveLine_videoFrame (i : SourceId) (top : Bool) (k : Nat) (bytes : List Byte) (s : State) :
    VideoFrame s (storeActiveLine i top k bytes s) := by
  unfold storeActiveLine
  split
  · split <;> rfl
  · rfl

theorem topFieldStart_videoFrame (i : SourceId) (s : State) : VideoFrame s (topFieldStart i s) := by
  unfold topFieldStart
  dsimp only
  split <;> exact (VideoFrame.refl s).setPage i _

theorem fieldEnd_videoFrame (i : SourceId) (s : State) : VideoFrame s (fieldEnd i s) := by
  unfold fieldEnd
  dsimp only
  split
  · exact .refl s
  · exact ((fillField_videoFrame i _ _ s).setPage i _).changeSource i _

theorem closeLine_videoFrame (i : SourceId) (active : Bool) (bytes : List Byte) (s : State) :
    VideoFrame s (closeLine i active bytes s) := by
  unfold closeLine
  dsimp only
  split
  · split
    · next f _ =>
        have stored := storeActiveLine_videoFrame i (isTop (s.source i) f.bit) f.lines bytes s
        split
        · exact (stored.setSource i _).trans (fieldEnd_videoFrame i _)
        · exact stored.setSource i _
    · exact (VideoFrame.refl s).setSource i _
  · exact .refl s

theorem openLine_videoFrame (i : SourceId) (bit : Bool) (s : State) : VideoFrame s (openLine i bit s) := by
  have set : ∀ r, VideoFrame s (s.setSource i r) := (VideoFrame.refl s).setSource i
  unfold openLine
  dsimp only
  split
  · split
    · exact (set _).trans (topFieldStart_videoFrame i _)
    · exact set _
  · exact set _

theorem takeCode_videoFrame (i : SourceId) (flags : Byte) (bytes : List Byte) (s : State) :
    VideoFrame s (takeCode i flags bytes s) := by
  have closed := ((VideoFrame.refl s).setSource i _).trans (closeLine_videoFrame i (endFlag flags) bytes
    (s.setSource i { s.source i with lossTimer := some s.params.lossTimeout }))
  unfold takeCode
  dsimp only
  split
  · exact (closed.trans (fieldEnd_videoFrame i _)).setSource i _
  split
  · exact closed
  · exact closed.trans (openLine_videoFrame i _ _)

theorem takeCodes_videoFrame (i : SourceId) (codes : List (List Byte × Byte)) (s : State) :
    VideoFrame s (codes.foldl (fun t c => takeCode i c.2 c.1 t) s) := by
  refine VideoFrame.foldl (fun t c => ?_) codes s
  exact takeCode_videoFrame i c.2 c.1 t

/-! ### The tour engine -/

/-- Only tour runtimes, notices and cause NOTICE may differ. -/
def TourFrame (s t : State) : Prop :=
  t = { s with port := noticePort s.port t.port, runtimes := t.runtimes, notices := t.notices }

theorem TourFrame.dirs {s t : State} (a : TourFrame s t) : t.dirs = s.dirs :=
  (congrArg State.dirs a).trans rfl

theorem TourFrame.port {s t : State} (a : TourFrame s t) : t.port = noticePort s.port t.port :=
  congrArg State.port a

theorem advanceRuntime_tourFrame (h : Head) (slot : SlotId) (t : Tour) (r : Runtime) (s : State) :
    TourFrame s (advanceRuntime h slot t r s) := by
  unfold advanceRuntime
  dsimp only
  split <;> rfl

theorem controlRuntime_tourFrame (act : TourAction) (h : Head) (slot : SlotId) (t : Tour) (r : Runtime)
    (s : State) : TourFrame s (controlRuntime act h slot t r s) := by
  cases act with
  | hold => rfl
  | resume => rfl
  | next => exact advanceRuntime_tourFrame h slot t r s
  | restart => rfl

end Sys2Proof.Machine
end

section
/-! PROOF. What a ring command can do: the judgement of every block on its command, block by block, and
with it every effect that a command carried out can have. -/

namespace Sys2Proof.Machine

theorem Bank.defined_eq_true {b : Bank} {k : SlotId} :
    b.defined k = true ↔ (b.slots.get k).isSome = true := Iff.rfl

theorem Bank.defined_eq_false {b : Bank} {k : SlotId} : b.defined k = false ↔ b.slots.get k = none := by
  unfold Bank.defined
  cases b.slots.get k <;> simp

theorem placeRankOk_iff {b : Bank} {rank : Nat} :
    placeRankOk b rank = true ↔ rank = 255 ∨ rank ≤ 32 ∧ rank ≤ b.count := by
  simp only [placeRankOk, Bool.or_eq_true, Bool.and_eq_true, decide_eq_true_eq]
  rfl

theorem restackRankOk_iff {rank : Nat} : restackRankOk rank = true ↔ rank = 255 ∨ rank ≤ 31 := by
  simp only [restackRankOk, Bool.or_eq_true, decide_eq_true_eq]
  rfl

/-- What a ring command that is carried out makes of the records of the part, with the checks it has
passed; the port is left as it stands before the command's own answer. -/
inductive RingEffect (s : State) : State → Prop where
  /-- R15. -/
  | place (hd : Head) (k : SlotId) (t : Tile) (rank : Nat)
      (rankOk : placeRankOk (s.dir hd).working rank = true) (geometry : t.geometryOk = true)
      (free : (s.dir hd).working.slots.get k = none) (bound : t.tourEmpty s = false) :
      RingEffect s
        (s.setWorking hd ((s.dir hd).working.place k t ((s.dir hd).working.placeRank rank)))
  /-- R16, R17. -/
  | modify (hd : Head) (k : SlotId) (old : Tile) (groups : Nat) (tile : TileBlock)
      (stands : (s.dir hd).working.slots.get k = some old)
      (geometry : (old.replaced groups tile).geometryOk = true)
      (bound : selects groups 3 = true → (old.replaced groups tile).tourEmpty s = false) :
      RingEffect s (s.setWorking hd ((s.dir hd).working.replace k (old.replaced groups tile)))
  /-- R18. -/
  | restack (hd : Head) (k : SlotId) (rank : Nat)
      (stands : ((s.dir hd).working.slots.get k).isSome = true) :
      RingEffect s (s.setWorking hd ((s.dir hd).working.restack k rank))
  /-- R19. -/
  | retire (hd : Head) (k : SlotId) (stands : ((s.dir hd).working.slots.get k).isSome = true) :
      RingEffect s (s.setWorking hd ((s.dir hd).working.retire k))
  /-- R20. -/
  | clear (hd : Head) : RingEffect s (s.setWorking hd .empty)
  /-- R21. -/
  | revert (hd : Head) : RingEffect s (s.setWorking hd (s.dir hd).live)
  /-- R24, R25, R27: LAYOUT_COMMIT on a STOPPED head. -/
  | commitNow (hd : Head) (stopped : (s.head hd).state = .stopped) :
      RingEffect s (applyBank hd (s.dir hd).working (endCommit hd .superseded s))
  /-- R24, R25: LAYOUT_COMMIT on a head that draws. -/
  | commitLater (hd : Head) (tag : Nat) (quiet : Bool) (draws : (s.head hd).state ≠ .stopped) :
      RingEffect s ((endCommit hd .superseded s).setDir hd { (endCommit hd .superseded s).dir hd with
        commit := some { bank := (s.dir hd).working, tag, quiet, answered := true } })
  /-- R29. -/
  | cancel (hd : Head) (c : CommitRecord) (pending : (s.dir hd).commit = some c) :
      RingEffect s (endCommit hd .cancelled s)
  /-- R40. -/
  | startHead (hd : Head) (std : Standard) (stopped : (s.head hd).state = .stopped) :
      RingEffect s
        (s.setHead hd { s.head hd with state := .running, standard := std, frameNumber := 0 })
  /-- R41: HEAD_STOP within a frame. -/
  | stopInFrame (hd : Head) (running : (s.head hd).state = .running)
      (frame : (s.head hd).inFlight = true) :
      RingEffect s (s.setHead hd { s.head hd with state := .stopping })
  /-- R41: HEAD_STOP between frames. -/
  | stopNow (hd : Head) (running : (s.head hd).state = .running)
      (frame : (s.head hd).inFlight = false) : RingEffect s (completeStop hd s)
  /-- R41, R77: HEAD_STOP on a head that has been stopped, SOURCE_DISABLE on a source that is OFF. -/
  | nothing : RingEffect s s
  /-- R56. -/
  | colour (k : ColourId) (c : Colour) : RingEffect s (s.setColour k c)
  /-- R57. -/
  | background (hd : Head) (k : ColourId) :
      RingEffect s (s.setHead hd { s.head hd with background := k })
  /-- R75, R76. -/
  | configure (i : SourceId) (p : PortId) (e : Expect) (hStart vStart : Nat) (swap : Bool)
      (starts : hStart ≤ 16 ∧ hStart % 2 = 0 ∧ vStart ≤ 15) (free : s.portHolder i p = none) :
      RingEffect s ((s.setPage i (s.page i).abandoned.cleared).changeSource i
        ((s.source i).configured p e hStart vStart swap s.params.lossTimeout))
  /-- R77. -/
  | disable (i : SourceId) (on : (s.source i).state ≠ .off) :
      RingEffect s
        ((s.setPage i (s.page i).abandoned.cleared).changeSource i (s.source i).disabled)
  /-- R74. -/
  | lockParams (p : LockParams) : RingEffect s { s with params := p }
  /-- R92, R93. -/
  | masks (i : SourceId) (m : MaskSlots) : RingEffect s (s.setMasks i m)
  /-- R101: TOUR_SET on an EMPTY tour. -/
  | defineTour (y : TourId) (t : Tour) (steps : 1 ≤ t.steps.length ∧ t.steps.length ≤ 12)
      (empty : s.tour y = none) : RingEffect s (s.setTour y (some t))
  /-- R102: TOUR_SET on a DEFINED tour. -/
  | redefineTour (y : TourId) (t old : Tour) (steps : 1 ≤ t.steps.length ∧ t.steps.length ≤ 12)
      (stands : s.tour y = some old) :
      RingEffect s { s.setTour y (some t) with
        runtimes := { ofA := .ofFn (restartedRuntime s y t .a)
                      ofB := .ofFn (restartedRuntime s y t .b) } }
  /-- R103. -/
  | retireTour (y : TourId) (unbound : s.bindings y = 0) : RingEffect s (s.setTour y none)
  /-- R111, R112. -/
  | control (act : TourAction) (hd : Head) (k : SlotId) (t : Tour) (r : Runtime)
      (touring : s.touring hd k = some (t, r)) : RingEffect s (controlRuntime act hd k t r s)
  /-- R120: LINE_SET, with the debounce started where the line is enabled. -/
  | line (l : LineId) (r : LineRecord) :
      RingEffect s (if r.enabled then startDebounce l ((endAlarm l s).setLine l r)
        else (endAlarm l s).setLine l r)
  /-- R124 to R126: the new record of a rule, or none. -/
  | rule (n : RuleId) (r : Option Rule) : RingEffect s ((removeEntryOf n s).1.setRule n r)
  /-- R134. -/
  | trigger (n : RuleId) (r : Rule) (u : State) (position : Nat) (stands : s.rule n = some r)
      (fires : fire .software n r s = (u, .placed position)) : RingEffect s u
  /-- R137. -/
  | clearEntries (hd : Head) (k : SlotId) (rule : Option RuleId) :
      RingEffect s (s.replaceList hd k ((s.list hd k).filter (fun e => !e.cleared rule)))

/-- What a block can reply to a command: BAD_ARGUMENT, or, to a command that is `formed` as step 1 of the
checks asks, another refusal, an effect, or the run of a query. -/
inductive Judged (s : State) (formed : Prop) : Reply → Prop where
  | badArgument : Judged s formed (refuse s .badArgument)
  | refused (f : formed) (r : Result) (detail : Nat) : Judged s formed (refuse s r detail)
  | done (f : formed) {u : State} (e : RingEffect s u) (detail : Nat) :
      Judged s formed (u, .done .ok detail)
  | deferred (f : formed) {u : State} (e : RingEffect s u) : Judged s formed (u, .deferred)
  | counts (f : formed) (written available : Nat) : Judged s formed (s, .counts written available)
  | running (f : formed) (q : QueryRun) : Judged s formed (s, .running q)

/-- Step 1 of a block's checks is passed: the header is clean and the operands lie in their ranges. -/
def StepOnePassed (h : Header) (i : Instr) : Prop := h.clean = true ∧ operandsInRange i = true

namespace Judged

theorem imp {s : State} {formed weaker : Prop} {reply : Reply} (w : formed → weaker)
    (j : Judged s formed reply) : Judged s weaker reply := by
  cases j with
  | badArgument => exact .badArgument
  | refused f r d => exact .refused (w f) r d
  | done f e d => exact .done (w f) e d
  | deferred f e => exact .deferred (w f) e
  | counts f n a => exact .counts (w f) n a
  | running f q => exact .running (w f) q

/-- The check that ends step 1. -/
theorem guarded {s : State} {formed : Prop} {fails : Bool} {reply : Reply}
    (passed : fails = false → Judged s formed reply) :
    Judged s formed (if fails then refuse s .badArgument else reply) := by
  cases fails with
  | false => exact passed rfl
  | true => exact .badArgument

end Judged

/-! ### The layout directory -/

theorem tilePlace_judged (h : Header) (head slot rank : Nat) (tile : TileBlock) (s : State) :
    Judged s (StepOnePassed h (.tilePlace h head slot rank tile))
      (tilePlace h head slot rank tile s) := by
  unfold tilePlace
  split
  · next hd k t hHead hSlot hTile =>
      refine .guarded fun checks => ?_
      have ⟨clean, rankOk⟩ : h.clean = true ∧ placeRankOk (s.dir hd).working rank = true := by
        simpa using checks
      have formed : StepOnePassed h (.tilePlace h head slot rank tile) := by
        have rank' : rank ≤ 32 ∨ rank = 255 := (placeRankOk_iff.1 rankOk).symm.imp_left And.left
        exact ⟨clean, by simp [operandsInRange, parseHead_range hHead, parseFin_range hSlot,
          parseTile_range hTile, rank']⟩
      split
      · exact .refused formed _ _
      split
      · exact .refused formed _ _
      split
      · exact .refused formed _ _
      · next geometry free bound =>
          exact .done formed (.place hd k t rank rankOk (by simpa using geometry)
            (Bank.defined_eq_false.1 (by simpa using free)) (by simpa using bound)) _
  · exact .badArgument

theorem tileModify_judged (h : Header) (head slot groups : Nat) (tile : TileBlock) (s : State) :
    Judged s (StepOnePassed h (.tileModify h head slot groups tile))
      (tileModify h head slot groups tile s) := by
  unfold tileModify
  split
  · next hd k hHead hSlot =>
      refine .guarded fun checks => ?_
      have ⟨clean, groupsPass⟩ : h.clean = true ∧ groupsOk groups tile = true := by
        simpa using checks
      have formed : StepOnePassed h (.tileModify h head slot groups tile) := by
        refine ⟨clean, ?_⟩
        rw [groupsOk_eq] at groupsPass
        simpa [operandsInRange, parseHead_range hHead, parseFin_range hSlot] using groupsPass
      split
      · exact .refused formed _ _
      · next old stands =>
          dsimp only
          split
          · exact .refused formed _ _
          split
          · exact .refused formed _ _
          · next geometry bound =>
              exact .done formed (.modify hd k old groups tile stands (by simpa using geometry)
                (by simpa using bound)) _
  · exact .badArgument

theorem tileRestack_judged (h : Header) (head slot rank : Nat) (s : State) :
    Judged s (StepOnePassed h (.tileRestack h head slot rank)) (tileRestack h head slot rank s) := by
  unfold tileRestack
  split
  · next hd k hHead hSlot =>
      refine .guarded fun checks => ?_
      have ⟨clean, rankOk⟩ : h.clean = true ∧ restackRankOk rank = true := by simpa using checks
      have formed : StepOnePassed h (.tileRestack h head slot rank) :=
        ⟨clean, by simp [operandsInRange, parseHead_range hHead, parseFin_range hSlot,
          (restackRankOk_iff.1 rankOk).symm]⟩
      split
      · exact .refused formed _ _
      · next stands =>
          exact .done formed (.restack hd k rank (Bank.defined_eq_true.1 (by simpa using stands))) _
  · exact .badArgument

theorem tileRetire_judged (h : Header) (head slot : Nat) (s : State) :
    Judged s (StepOnePassed h (.tileRetire h head slot)) (tileRetire h head slot s) := by
  unfold tileRetire
  split
  · next hd k hHead hSlot =>
      refine .guarded fun checks => ?_
      have formed : StepOnePassed h (.tileRetire h head slot) :=
        ⟨by simpa using checks, by simp [operandsInRange, parseHead_range hHead, parseFin_range hSlot]⟩
      split
      · exact .refused formed _ _
      · next stands =>
          exact .done formed (.retire hd k (Bank.defined_eq_true.1 (by simpa using stands))) _
  · exact .badArgument

theorem layoutClear_judged (h : Header) (head : Nat) (s : State) :
    Judged s (StepOnePassed h (.layoutClear h head)) (layoutClear h head s) := by
  unfold layoutClear
  split
  · next hd hHead =>
      refine .guarded fun checks => .done ⟨by simpa using checks, ?_⟩ (.clear hd) _
      simp [operandsInRange, parseHead_range hHead]
  · exact .badArgument

theorem layoutRevert_judged (h : Header) (head : Nat) (s : State) :
    Judged s (StepOnePassed h (.layoutRevert h head)) (layoutRevert h head s) := by
  unfold layoutRevert
  split
  · next hd hHead =>
      refine .guarded fun checks => .done ⟨by simpa using checks, ?_⟩ (.revert hd) _
      simp [operandsInRange, parseHead_range hHead]
  · exact .badArgument

theorem layoutCommit_judged (h : Header) (head : Nat) (s : State) :
    Judged s (StepOnePassed h (.layoutCommit h head)) (layoutCommit h head s) := by
  unfold layoutCommit
  split
  · next hd hHead =>
      refine .guarded fun checks => ?_
      have formed : StepOnePassed h (.layoutCommit h head) :=
        ⟨by simpa using checks, by simp [operandsInRange, parseHead_range hHead]⟩
      dsimp only
      split
      · next stopped => exact .done formed (.commitNow hd stopped) _
      · next draws => exact .deferred formed (.commitLater hd h.tag h.quiet draws)
  · exact .badArgument

theorem layoutCancel_judged (h : Header) (head : Nat) (s : State) :
    Judged s (StepOnePassed h (.layoutCancel h head)) (layoutCancel h head s) := by
  unfold layoutCancel
  split
  · next hd hHead =>
      refine .guarded fun checks => ?_
      have formed : StepOnePassed h (.layoutCancel h head) :=
        ⟨by simpa using checks, by simp [operandsInRange, parseHead_range hHead]⟩
      split
      · exact .refused formed _ _
      · next c pending => exact .done formed (.cancel hd c pending) _
  · exact .badArgument

/-! ### The heads -/

theorem headStart_judged (h : Header) (head standard : Nat) (s : State) :
    Judged s (StepOnePassed h (.headStart h head standard)) (headStart h head standard s) := by
  unfold headStart
  split
  · next hd std hHead hStd =>
      refine .guarded fun checks => ?_
      have formed : StepOnePassed h (.headStart h head standard) :=
        ⟨by simpa using checks,
          by simp [operandsInRange, parseHead_range hHead, parseStandard_range hStd]⟩
      split
      · exact .refused formed _ _
      · next stopped => exact .done formed (.startHead hd std (by simpa using stopped)) _
  · exact .badArgument

theorem headStop_judged (h : Header) (head : Nat) (s : State) :
    Judged s (StepOnePassed h (.headStop h head)) (headStop h head s) := by
  unfold headStop
  split
  · next hd hHead =>
      refine .guarded fun checks => ?_
      have formed : StepOnePassed h (.headStop h head) :=
        ⟨by simpa using checks, by simp [operandsInRange, parseHead_range hHead]⟩
      split
      · next running =>
          split
          · next frame => exact .done formed (.stopInFrame hd running frame) _
          · next frame => exact .done formed (.stopNow hd running (by simpa using frame)) _
      · exact .done formed .nothing _
      · exact .done formed .nothing _
  · exact .badArgument

theorem paletteSet_judged (h : Header) (index y cb cr : Nat) (s : State) :
    Judged s (StepOnePassed h (.paletteSet h index y cb cr)) (paletteSet h index y cb cr s) := by
  unfold paletteSet
  split
  · next k hIndex =>
      refine .guarded fun checks => .done ⟨by simpa using checks, ?_⟩ (.colour k _) _
      simp [operandsInRange, parseFin_range hIndex]
  · exact .badArgument

theorem headBackground_judged (h : Header) (head colour : Nat) (s : State) :
    Judged s (StepOnePassed h (.headBackground h head colour)) (headBackground h head colour s) := by
  unfold headBackground
  split
  · next hd k hHead hColour =>
      refine .guarded fun checks => .done ⟨by simpa using checks, ?_⟩ (.background hd k) _
      simp [operandsInRange, parseHead_range hHead, parseFin_range hColour]
  · exact .badArgument

/-! ### Sources and masks -/

theorem sourceSet_judged (h : Header) (a : SourceArgs) (s : State) :
    Judged s (StepOnePassed h (.sourceSet h a)) (sourceSet h a s) := by
  unfold sourceSet
  split
  · next i p e swap hSource hPort hExpect hSwap =>
      refine .guarded fun checks => ?_
      have ⟨clean, starts⟩ : h.clean = true ∧ a.hStart ≤ 16 ∧ a.hStart % 2 = 0 ∧ a.vStart ≤ 15 := by
        simpa [and_assoc] using checks
      have formed : StepOnePassed h (.sourceSet h a) :=
        ⟨clean, by simp [operandsInRange, parseFin_range hSource, parseFin_range hPort,
          parseExpect_range hExpect, parseYesNo_range hSwap, starts]⟩
      split
      · exact .refused formed _ _
      · next free => exact .done formed (.configure i p e _ _ swap starts free) _
  · exact .badArgument

theorem sourceDisable_judged (h : Header) (source : Nat) (s : State) :
    Judged s (StepOnePassed h (.sourceDisable h source)) (sourceDisable h source s) := by
  unfold sourceDisable
  split
  · next i hSource =>
      refine .guarded fun checks => ?_
      have formed : StepOnePassed h (.sourceDisable h source) :=
        ⟨by simpa using checks, by simp [operandsInRange, parseFin_range hSource]⟩
      split
      · exact .done formed .nothing _
      · next on => exact .done formed (.disable i on) _
  · exact .badArgument

theorem lockParams_judged (h : Header) (lockCount unstableLimit lossTimeout : Nat) (s : State) :
    Judged s (StepOnePassed h (.lockParams h lockCount unstableLimit lossTimeout))
      (lockParams h lockCount unstableLimit lossTimeout s) := by
  unfold lockParams
  refine .guarded fun checks => ?_
  split
  · next ranges =>
      exact .done ⟨by simpa using checks, by simp [operandsInRange, ranges]⟩ (.lockParams _) _
  · exact .badArgument

theorem maskSet_judged (h : Header) (a : MaskArgs) (s : State) :
    Judged s (StepOnePassed h (.maskSet h a)) (maskSet h a s) := by
  unfold maskSet
  split
  · next i k m hSource hSlot hMask =>
      refine .guarded fun checks => ?_
      have formed : StepOnePassed h (.maskSet h a) :=
        ⟨by simpa using checks,
          by simp [operandsInRange, parseFin_range hSource, parseFin_range hSlot, parseMask_range hMask]⟩
      split
      · exact .refused formed _ _
      · exact .done formed (.masks i _) _
  · exact .badArgument

theorem maskClear_judged (h : Header) (source slot : Nat) (s : State) :
    Judged s (StepOnePassed h (.maskClear h source slot)) (maskClear h source slot s) := by
  unfold maskClear
  split
  · next i k hSource hSlot =>
      refine .guarded fun checks => .done ⟨by simpa using checks, ?_⟩ (.masks i _) _
      simp [operandsInRange, parseFin_range hSource, parseFinOrNone_range (by decide) hSlot]
  · exact .badArgument

/-! ### Tours -/

theorem parseTour_steps {a : TourArgs} {t : Tour} (p : parseTour a = some t) :
    1 ≤ t.steps.length ∧ t.steps.length ≤ 12 := by
  unfold parseTour at p
  split at p
  · split at p
    · next counts =>
        cases p
        dsimp only
        omega
    · cases p
  · cases p

theorem tourSet_judged (h : Header) (a : TourArgs) (s : State) :
    Judged s (StepOnePassed h (.tourSet h a)) (tourSet h a s) := by
  unfold tourSet
  split
  · next y t hTour hSteps =>
      refine .guarded fun checks => ?_
      have formed : StepOnePassed h (.tourSet h a) := by
        obtain ⟨skip, low, high, length, each⟩ := parseTour_range hSteps
        refine ⟨by simpa using checks, ?_⟩
        simp only [operandsInRange, parseFin_range hTour, skip, low, high, length, Bool.and_eq_true,
          decide_eq_true_eq, List.all_eq_true, true_and]
        exact fun p hp => ⟨⟨(each p hp).1, (each p hp).2.1⟩, (each p hp).2.2⟩
      split
      · next empty => exact .done formed (.defineTour y t (parseTour_steps hSteps) empty) _
      · next old stands => exact .done formed (.redefineTour y t old (parseTour_steps hSteps) stands) _
  · exact .badArgument

theorem tourRetire_judged (h : Header) (tour : Nat) (s : State) :
    Judged s (StepOnePassed h (.tourRetire h tour)) (tourRetire h tour s) := by
  unfold tourRetire
  split
  · next y hTour =>
      refine .guarded fun checks => ?_
      have formed : StepOnePassed h (.tourRetire h tour) :=
        ⟨by simpa using checks, by simp [operandsInRange, parseFin_range hTour]⟩
      split
      · exact .refused formed _ _
      · next unbound => exact .done formed (.retireTour y (by omega)) _
  · exact .badArgument

theorem tourControl_judged (h : Header) (head slot action : Nat) (s : State) :
    Judged s (StepOnePassed h (.tourControl h head slot action)) (tourControl h head slot action s) := by
  unfold tourControl
  split
  · next hd k act hHead hSlot hAction =>
      refine .guarded fun checks => ?_
      have formed : StepOnePassed h (.tourControl h head slot action) :=
        ⟨by simpa using checks, by simp [operandsInRange, parseHead_range hHead, parseFin_range hSlot,
          parseAction_range hAction]⟩
      split
      · exact .refused formed _ _
      split
      · next t r touring => exact .done formed (.control act hd k t r touring) _
      · exact .refused formed _ _
  · exact .badArgument

/-! ### Lines, rules and call-up lists -/

theorem lineSet_judged (h : Header) (line enabled polarity debounce : Nat) (s : State) :
    Judged s (StepOnePassed h (.lineSet h line enabled polarity debounce))
      (lineSet h line enabled polarity debounce s) := by
  unfold lineSet
  split
  · next l en pol hLine hEnabled hPolarity =>
      refine .guarded fun checks => ?_
      have ⟨clean, short⟩ : h.clean = true ∧ debounce ≤ 255 := by simpa using checks
      exact .done
        ⟨clean, by simp [operandsInRange, parseFin_range hLine, parseYesNo_range hEnabled,
          parsePolarity_range hPolarity, short]⟩
        (.line l { (endAlarm l s).line l with
          enabled := en, polarity := pol, debounce := debounce, timer := none }) _
  · exact .badArgument

theorem ruleSet_judged (h : Header) (a : RuleArgs) (s : State) :
    Judged s (StepOnePassed h (.ruleSet h a)) (ruleSet h a s) := by
  unfold ruleSet
  split
  · next n r hRule hRecord =>
      refine .guarded fun checks => .done ⟨by simpa using checks, ?_⟩ (.rule n (some r)) _
      simp [operandsInRange, parseFin_range hRule, parseRule_range hRecord]
  · exact .badArgument

theorem ruleRetire_judged (h : Header) (rule : Nat) (s : State) :
    Judged s (StepOnePassed h (.ruleRetire h rule)) (ruleRetire h rule s) := by
  unfold ruleRetire
  split
  · next n hRule =>
      refine .guarded fun checks => .done ⟨by simpa using checks, ?_⟩ (.rule n none) _
      simp [operandsInRange, parseFin_range hRule]
  · exact .badArgument

theorem callupTrigger_judged (h : Header) (rule : Nat) (s : State) :
    Judged s (StepOnePassed h (.callupTrigger h rule)) (callupTrigger h rule s) := by
  unfold callupTrigger
  split
  · next n hRule =>
      refine .guarded fun checks => ?_
      have formed : StepOnePassed h (.callupTrigger h rule) :=
        ⟨by simpa using checks, by simp [operandsInRange, parseFin_range hRule]⟩
      split
      · exact .refused formed _ _
      · next r stands =>
          refine .guarded fun _ => ?_
          split
          · next u position fires => exact .done formed (.trigger n r u position stands fires) _
          · exact .refused formed _ _
          · exact .refused formed _ _
  · exact .badArgument

theorem callupClear_judged (h : Header) (head slot rule : Nat) (s : State) :
    Judged s (StepOnePassed h (.callupClear h head slot rule)) (callupClear h head slot rule s) := by
  unfold callupClear
  split
  · next hd k r hHead hSlot hRule =>
      refine .guarded fun checks => .done ⟨by simpa using checks, ?_⟩ (.clearEntries hd k r) _
      simp [operandsInRange, parseHead_range hHead, parseFin_range hSlot,
        parseFinOrNone_range (by decide) hRule]
  · exact .badArgument

/-! ### The queries -/

theorem startQuery_judged {formed : Prop} (f : formed) (h : Header) (code : Nat) (q : QueryArgs)
    (records : List ResultRecord) (s : State) : Judged s formed (startQuery h code q records s) := by
  unfold startQuery
  split
  · exact .counts f _ _
  · exact .running f _

/-- R162 step 1 is the header and the buffer's alignment. -/
theorem queryOk_eq_true {h : Header} {q : QueryArgs} (ok : (!queryOk h q) = false) :
    h.clean = true ∧ bufferAligned q = true := by
  simpa [queryOk, bufferAligned] using ok

theorem querySources_judged (h : Header) (q : QueryArgs) (s : State) :
    Judged s (StepOnePassed h (.querySources h q)) (querySources h q s) :=
  .guarded fun ok => startQuery_judged (queryOk_eq_true ok) _ _ _ _ s

theorem queryLayout_judged (h : Header) (q : QueryArgs) (head bank : Nat) (s : State) :
    Judged s (StepOnePassed h (.queryLayout h q head bank)) (queryLayout h q head bank s) := by
  unfold queryLayout
  split
  · next hd name hHead hBank =>
      refine .guarded fun ok => ?_
      obtain ⟨clean, aligned⟩ := queryOk_eq_true ok
      have formed : StepOnePassed h (.queryLayout h q head bank) :=
        ⟨clean, by simp [operandsInRange, aligned, parseHead_range hHead, parseBank_range hBank]⟩
      split
      · exact startQuery_judged formed _ _ _ _ s
      · exact .refused formed _ _
  · exact .badArgument

theorem queryRuntime_judged (h : Header) (q : QueryArgs) (head : Nat) (s : State) :
    Judged s (StepOnePassed h (.queryRuntime h q head)) (queryRuntime h q head s) := by
  unfold queryRuntime
  split
  · next hd hHead =>
      refine .guarded fun ok => ?_
      obtain ⟨clean, aligned⟩ := queryOk_eq_true ok
      exact startQuery_judged ⟨clean, by simp [operandsInRange, aligned, parseHead_range hHead]⟩ _ _ _ _ s
  · exact .badArgument

theorem queryTour_judged (h : Header) (q : QueryArgs) (tour : Nat) (s : State) :
    Judged s (StepOnePassed h (.queryTour h q tour)) (queryTour h q tour s) := by
  unfold queryTour
  split
  · next y hTour =>
      refine .guarded fun ok => ?_
      obtain ⟨clean, aligned⟩ := queryOk_eq_true ok
      exact startQuery_judged ⟨clean, by simp [operandsInRange, aligned, parseFin_range hTour]⟩ _ _ _ _ s
  · exact .badArgument

theorem queryRules_judged (h : Header) (q : QueryArgs) (s : State) :
    Judged s (StepOnePassed h (.queryRules h q)) (queryRules h q s) :=
  .guarded fun ok => startQuery_judged (queryOk_eq_true ok) _ _ _ _ s

theorem queryLines_judged (h : Header) (q : QueryArgs) (s : State) :
    Judged s (StepOnePassed h (.queryLines h q)) (queryLines h q s) :=
  .guarded fun ok => startQuery_judged (queryOk_eq_true ok) _ _ _ _ s

theorem queryCallups_judged (h : Header) (q : QueryArgs) (head slot : Nat) (s : State) :
    Judged s (StepOnePassed h (.queryCallups h q head slot)) (queryCallups h q head slot s) := by
  unfold queryCallups
  split
  · next hd k hHead hSlot =>
      refine .guarded fun ok => ?_
      obtain ⟨clean, aligned⟩ := queryOk_eq_true ok
      exact startQuery_judged
        ⟨clean, by simp [operandsInRange, aligned, parseHead_range hHead, parseFin_range hSlot]⟩ _ _ _ _ s
  · exact .badArgument

theorem queryNotices_judged (h : Header) (q : QueryArgs) (s : State) :
    Judged s (StepOnePassed h (.queryNotices h q)) (queryNotices h q s) :=
  .guarded fun ok => startQuery_judged (queryOk_eq_true ok) _ _ _ _ s

/-! ### The execution of a ring command -/

/-- R148: the row of a ring command is the arrival of its record. -/
theorem exec_ring {i : Instr} {h : Header} (ring : ringHeader i = some h) (s : State) :
    exec i s = .next (arrive i (execute i) s) := by
  cases i <;> cases ring <;> rfl

end Sys2Proof.Machine
end

section
/-! PROOF. From a block's judgement to the command: the port that a ring command's effect leaves, and the
refusals of O10 and O11. -/

namespace Sys2Proof.Machine

/-! ### The block that judges a command -/

/-- The processor carries a ring command out by a block that judges it; the unknown code of a BAD_COMMAND
is refused before step 1. -/
def HasBlock (i : Instr) (h : Header) (code : Nat) : Prop :=
  ∃ block : State → Reply, execute i = answering h code block
    ∧ ∀ s, Judged s ((∀ h' code', i ≠ .badCommand h' code') → StepOnePassed h i) (block s)

theorem HasBlock.intro {i : Instr} {h : Header} {code : Nat} {block : State → Reply}
    (by_block : execute i = answering h code block)
    (judged : ∀ s, Judged s (StepOnePassed h i) (block s)) : HasBlock i h code :=
  ⟨block, by_block, fun s => (judged s).imp fun formed _ => formed⟩

theorem badCommand_hasBlock (h : Header) (code : Nat) : HasBlock (.badCommand h code) h code :=
  ⟨badCommand, rfl, fun _ => .refused (fun other => absurd rfl (other h code)) _ _⟩

theorem ring_hasBlock {i : Instr} {h : Header} {code : Nat} (ring : ringHeader i = some h)
    (coded : i.code = some code) : HasBlock i h code := by
  cases i <;> cases ring <;> cases coded
  case tilePlace => exact .intro rfl fun _ => tilePlace_judged ..
  case tileModify => exact .intro rfl fun _ => tileModify_judged ..
  case tileRestack => exact .intro rfl fun _ => tileRestack_judged ..
  case tileRetire => exact .intro rfl fun _ => tileRetire_judged ..
  case layoutClear => exact .intro rfl fun _ => layoutClear_judged ..
  case layoutRevert => exact .intro rfl fun _ => layoutRevert_judged ..
  case layoutCommit => exact .intro rfl fun _ => layoutCommit_judged ..
  case layoutCancel => exact .intro rfl fun _ => layoutCancel_judged ..
  case headStart => exact .intro rfl fun _ => headStart_judged ..
  case headStop => exact .intro rfl fun _ => headStop_judged ..
  case paletteSet => exact .intro rfl fun _ => paletteSet_judged ..
  case headBackground => exact .intro rfl fun _ => headBackground_judged ..
  case sourceSet => exact .intro rfl fun _ => sourceSet_judged ..
  case sourceDisable => exact .intro rfl fun _ => sourceDisable_judged ..
  case lockParams => exact .intro rfl fun _ => lockParams_judged ..
  case maskSet => exact .intro rfl fun _ => maskSet_judged ..
  case maskClear => exact .intro rfl fun _ => maskClear_judged ..
  case tourSet => exact .intro rfl fun _ => tourSet_judged ..
  case tourRetire => exact .intro rfl fun _ => tourRetire_judged ..
  case tourControl => exact .intro rfl fun _ => tourControl_judged ..
  case lineSet => exact .intro rfl fun _ => lineSet_judged ..
  case ruleSet => exact .intro rfl fun _ => ruleSet_judged ..
  case ruleRetire => exact .intro rfl fun _ => ruleRetire_judged ..
  case callupTrigger => exact .intro rfl fun _ => callupTrigger_judged ..
  case callupClear => exact .intro rfl fun _ => callupClear_judged ..
  case querySources => exact .intro rfl fun _ => querySources_judged ..
  case queryLayout => exact .intro rfl fun _ => queryLayout_judged ..
  case queryRuntime => exact .intro rfl fun _ => queryRuntime_judged ..
  case queryTour => exact .intro rfl fun _ => queryTour_judged ..
  case queryRules => exact .intro rfl fun _ => queryRules_judged ..
  case queryLines => exact .intro rfl fun _ => queryLines_judged ..
  case queryCallups => exact .intro rfl fun _ => queryCallups_judged ..
  case queryNotices => exact .intro rfl fun _ => queryNotices_judged ..
  case badCommand => exact badCommand_hasBlock ..

theorem ring_coded {i : Instr} {h : Header} (ring : ringHeader i = some h) :
    ∃ code, i.code = some code := by
  cases i <;> cases ring <;> exact ⟨_, rfl⟩

/-- What is no command of the ring is never carried out by the processor. -/
theorem execute_other {i : Instr} (other : ringHeader i = none) : execute i = id := by
  cases i <;> cases other <;> rfl

/-- R14 step 1: a command that does not pass it is answered BAD_ARGUMENT. -/
theorem Judged.refuses {s : State} {formed : Prop} {reply : Reply} (j : Judged s formed reply)
    (malformed : ¬ formed) : reply = refuse s .badArgument := by
  cases j with
  | badArgument => rfl
  | refused f => exact absurd f malformed
  | done f => exact absurd f malformed
  | deferred f => exact absurd f malformed
  | counts f => exact absurd f malformed
  | running f => exact absurd f malformed

/-- Settles O10: every block refuses a command that does not pass step 1 of its checks. -/
theorem operandOutOfRangeRefused : Obligations.OperandOutOfRangeRefused := by
  intro i h code s ring coded known ready malformed
  obtain ⟨block, by_block, judged⟩ := ring_hasBlock ring coded
  have failed : ¬ StepOnePassed h i := by
    rintro ⟨clean, inRange⟩
    rw [clean, inRange] at malformed
    simp at malformed
  have reply := (judged s.taken).refuses fun formed => failed (formed known)
  rw [exec_ring ring, by_block, arrive_refused ready reply]

/-! ### The port a block leaves -/

/-- The completion reports an end that is no refusal of a command: success, or the end of a commit. -/
def Completion.NoRefusal (c : Completion) : Prop :=
  c.result = .ok ∨ c.result = .superseded ∨ c.result = .cancelled

/-- From `s` to `t` the port has taken completions of commits into its queue, raised causes and set its
mark, and nothing else. -/
def PortGrown (s t : State) : Prop :=
  ∃ pre cause mark, t.port = { s.port with queue := s.port.queue ++ pre, cause, mark }
    ∧ ∀ c ∈ pre, c.NoRefusal

namespace PortGrown

theorem of_notice {s t : State} (p : t.port = noticePort s.port t.port) : PortGrown s t :=
  ⟨[], _, s.port.mark, by rw [p, noticePort, List.append_nil], by simp⟩

theorem of_same {s t : State} (p : t.port = s.port) : PortGrown s t := of_notice (by rw [p]; rfl)

theorem trans {s t u : State} (a : PortGrown s t) (b : PortGrown t u) : PortGrown s u := by
  obtain ⟨pre, cause, mark, port, mild⟩ := a
  obtain ⟨pre', cause', mark', port', mild'⟩ := b
  refine ⟨pre ++ pre', cause', mark', ?_, fun c hc => ?_⟩
  · rw [port', port, List.append_assoc]
  · exact (List.mem_append.1 hc).elim (mild c) (mild' c)

theorem enqueue {s t : State} (a : PortGrown s t) {c : Completion} (mild : c.NoRefusal) :
    PortGrown s (t.setPort (t.port.enqueue c)) :=
  a.trans ⟨[c], _, _, rfl, by simpa using mild⟩

end PortGrown

theorem endCommit_portGrown (h : Head) {r : Result} (ends : r = .superseded ∨ r = .cancelled)
    (s : State) : PortGrown s (endCommit h r s) := by
  unfold endCommit
  split
  · exact .of_same rfl
  dsimp only
  split
  · exact (PortGrown.of_same rfl).enqueue (.inr ends)
  · exact .of_same rfl

theorem applyBank_portGrown (h : Head) (new : Bank) (s : State) : PortGrown s (applyBank h new s) := by
  unfold applyBank
  dsimp only
  exact (PortGrown.of_same rfl).trans (.of_notice (heard_carryOver h (s.dir h).live new _).1)

theorem applyCommit_portGrown (h : Head) (detail : Nat) (s : State) :
    PortGrown s (applyCommit h detail s) := by
  unfold applyCommit
  split
  · exact .of_same rfl
  · next c _ =>
      have applied : PortGrown s (applyBank h c.bank (s.setDir h { s.dir h with commit := none })) :=
        (PortGrown.of_same rfl).trans (applyBank_portGrown h c.bank _)
      dsimp only
      unfold commitAnswer
      split
      · exact applied.enqueue (.inl rfl)
      · exact applied

theorem completeStop_portGrown (h : Head) (s : State) : PortGrown s (completeStop h s) :=
  (PortGrown.of_same rfl).trans (applyCommit_portGrown h 0 _)

/-- What a ring command's effect leaves of the port before the command's own answer. -/
theorem RingEffect.portGrown {s u : State} (e : RingEffect s u) : PortGrown s u := by
  cases e with
  | place => exact .of_same rfl
  | modify => exact .of_same rfl
  | restack => exact .of_same rfl
  | retire => exact .of_same rfl
  | clear => exact .of_same rfl
  | revert => exact .of_same rfl
  | commitNow hd => exact (endCommit_portGrown hd (.inl rfl) s).trans (applyBank_portGrown hd _ _)
  | commitLater hd => exact (endCommit_portGrown hd (.inl rfl) s).trans (.of_same rfl)
  | cancel hd => exact endCommit_portGrown hd (.inr rfl) s
  | startHead => exact .of_same rfl
  | stopInFrame => exact .of_same rfl
  | stopNow hd => exact completeStop_portGrown hd s
  | nothing => exact .of_same rfl
  | colour => exact .of_same rfl
  | background => exact .of_same rfl
  | configure i => exact .of_notice (((VideoFrame.refl s).setPage i _).changeSource i _).port
  | disable i => exact .of_notice (((VideoFrame.refl s).setPage i _).changeSource i _).port
  | lockParams => exact .of_same rfl
  | masks => exact .of_same rfl
  | defineTour => exact .of_same rfl
  | redefineTour => exact .of_same rfl
  | retireTour => exact .of_same rfl
  | control => exact .of_notice (controlRuntime_tourFrame ..).port
  | line l r => exact .of_notice (lineSet_alarmFrame l r s).port
  | rule n => exact .of_notice (removeEntryOf_alarmFrame n s).port
  | trigger n r u position stands fires =>
      have frame := fire_alarmFrame .software n r s
      rw [fires] at frame
      exact .of_notice frame.port
  | clearEntries => exact .of_notice ((AlarmFrame.refl s).replaceList _ _ _).port

/-! ### A refusal changes nothing -/

theorem answers_ok_noRefusal {h : Header} {code d : Nat} {c : Completion}
    (hc : c ∈ answers h code .ok d) : c.NoRefusal := by
  unfold answers at hc
  split at hc
  · simp at hc
  · rw [List.mem_singleton.1 hc]
    exact .inl rfl

/-- A ring command leaves its queue longer by completions that are no refusals, or leaves all but the port
as it was. -/
theorem ring_refuses_in_place {i : Instr} {h : Header} {code : Nat} {s : State}
    (ring : ringHeader i = some h) (coded : i.code = some code) (ready : s.Ready) :
    ∃ t, exec i s = .next t ∧ (t = { s with port := t.port }
      ∨ ∃ done, t.port.queue = s.port.queue ++ done ∧ ∀ c ∈ done, c.NoRefusal) := by
  obtain ⟨block, by_block, judged⟩ := ring_hasBlock ring coded
  refine ⟨_, exec_ring ring s, ?_⟩
  rw [by_block]
  have j := judged s.taken
  generalize reply : block s.taken = answer at j
  cases j with
  | badArgument => exact .inl (by rw [arrive_refused ready reply]; rfl)
  | refused => exact .inl (by rw [arrive_refused ready reply]; rfl)
  | done _ e d =>
      obtain ⟨pre, cause, mark, port, mild⟩ := e.portGrown
      refine .inr ⟨pre ++ answers h code .ok d, ?_, fun c hc => ?_⟩
      · rw [arrive_done ready reply port]
        rfl
      · exact (List.mem_append.1 hc).elim (mild c) answers_ok_noRefusal
  | deferred _ e =>
      obtain ⟨pre, cause, mark, port, mild⟩ := e.portGrown
      refine .inr ⟨pre, ?_, mild⟩
      rw [arrive_deferred ready reply port]
      rfl
  | counts => exact .inl (by rw [arrive_counts ready reply]; rfl)
  | running => exact .inl (by rw [arrive_running ready reply])

/-- Settles O11: the completion of a refusal is none of those that an effect brings. -/
theorem refusedCommandChangesNothing : Obligations.RefusedCommandChangesNothing := by
  intro i h code s t before c ring coded ready run queue _ _ queued notOk notSuperseded notCancelled
  obtain ⟨u, run', only | ⟨done, grown, mild⟩⟩ := ring_refuses_in_place ring coded ready
  · cases run.symm.trans run'
    exact only
  · cases run.symm.trans run'
    rw [queued, queue] at grown
    have mem : c ∈ done := by
      rw [← List.append_cancel_left grown]
      exact List.mem_singleton_self c
    exact absurd (mild c mem) (by simp [Completion.NoRefusal, notOk, notSuperseded, notCancelled])

end Sys2Proof.Machine
end

section
/-! PROOF. Editing WORKING (O12 to O15): the checks of R14 in the terms of Safety, and the five commands. -/

namespace Sys2Proof.Machine

/-! ### The checks of R14 in the terms of Safety -/

theorem geometryOk_iff {t : Tile} : t.geometryOk = true ↔ GeometryPasses t := by
  simp only [Tile.geometryOk, GeometryPasses, Bool.and_eq_true, decide_eq_true_eq, and_assoc]

theorem geometryOk_eq_false {t : Tile} (fails : ¬ GeometryPasses t) : t.geometryOk = false :=
  Bool.eq_false_iff.2 fun ok => fails (geometryOk_iff.1 ok)

theorem tourEmpty_eq_false_iff {t : Tile} {s : State} : t.tourEmpty s = false ↔ TourIsDefined s t := by
  unfold Tile.tourEmpty TourIsDefined
  cases t.tour with
  | none => simp
  | some y => cases s.tour y <;> simp

theorem tourEmpty_eq_true {t : Tile} {s : State} (undefined : ¬ TourIsDefined s t) :
    t.tourEmpty s = true :=
  (Bool.eq_false_or_eq_true _).resolve_right fun no => undefined (tourEmpty_eq_false_iff.1 no)

/-- R16: the record with the selected groups of the block and the other groups of the old record. -/
theorem replaced_eq {groups : Nat} {b : TileBlock} {old t : Tile}
    (inRange : selectedInRange groups b = true) (carries : Carries b groups t)
    (agree : AgreeElsewhere groups t old) : old.replaced groups b = t := by
  obtain ⟨sameGeometry, sameView, sameSource, sameTour, sameStyle⟩ := agree
  simp only [selectedInRange, Bool.and_eq_true, Bool.or_eq_true, Bool.not_eq_true'] at inRange
  obtain ⟨⟨⟨⟨geometry, view⟩, -⟩, -⟩, style⟩ := inRange
  have chosen {α : Type} {k : Nat} {parsed : Option α} {new kept : α}
      (on : groups.testBit k = true → parsed = some new) (off : groups.testBit k = false → new = kept) :
      (if selects groups k then parsed.getD kept else kept) = new := by
    rw [selects_eq_testBit]
    cases bit : groups.testBit k with
    | true => rw [on bit]; rfl
    | false => exact (off bit).symm
  unfold Tile.replaced
  rw [chosen (fun on => carries.geometry on (geometry.resolve_left (by simp [on]))) sameGeometry,
    chosen (fun on => carries.view on (view.resolve_left (by simp [on]))) sameView,
    chosen carries.source sameSource, chosen carries.tour sameTour,
    chosen (fun on => carries.style on (style.resolve_left (by simp [on]))) sameStyle]

/-! ### The rows -/

/-- R15 to R21: a command that edits WORKING and is answered OK at once. -/
theorem arrive_edits {i : Instr} {h : Header} {code : Nat} {block : State → Reply} {s : State}
    {hd : Head} {b : Bank} {d : Nat} (ready : s.Ready)
    (reply : block s.taken = (s.taken.setWorking hd b, .done .ok d)) :
    arrive i (answering h code block) s
      = (s.withWorking hd b).afterCommand (answers h code .ok d) :=
  arrive_done (pre := []) (c := s.port.cause) (m := s.port.mark) ready reply
    (by rw [List.append_nil]; rfl)

section
variable {h : Header} {hd : Head} {k : SlotId} {s : State}

/-- R14, R15: TILE_PLACE with the record `t`, past step 1 but for the rank. -/
theorem tilePlace_eq {rank : Nat} {b : TileBlock} {t : Tile} (clean : h.clean = true)
    (inRange : tileInRange b = true) (carries : Carries b 31 t) :
    tilePlace h (codeHead hd) k.val rank b s =
      if !placeRankOk (s.dir hd).working rank then refuse s .badArgument
      else if !t.geometryOk then refuse s .badGeometry
      else if (s.dir hd).working.defined k then refuse s .slotInUse
      else if t.tourEmpty s then refuse s .tourEmpty
      else (s.setWorking hd ((s.dir hd).working.place k t ((s.dir hd).working.placeRank rank)),
        .done .ok ((s.dir hd).working.placeRank rank)) := by
  simp only [tilePlace, parseHead_code, parseFin_val, Carries.tile inRange carries, clean, Bool.not_true,
    Bool.false_or]

/-- R14, R16: TILE_MODIFY on a DEFINED slot, past step 1, with `t` the record as modified. -/
theorem tileModify_eq {groups : Nat} {b : TileBlock} {old t : Tile} (clean : h.clean = true)
    (low : 1 ≤ groups) (high : groups ≤ 31) (inRange : selectedInRange groups b = true)
    (stands : (s.dir hd).working.slots.get k = some old) (carries : Carries b groups t)
    (agree : AgreeElsewhere groups t old) :
    tileModify h (codeHead hd) k.val groups b s =
      if !t.geometryOk then refuse s .badGeometry
      else if groups.testBit 3 && t.tourEmpty s then refuse s .tourEmpty
      else (s.setWorking hd ((s.dir hd).working.replace k t),
        .done .ok ((s.dir hd).working.rankOf k)) := by
  have pass : groupsOk groups b = true := by simp [groupsOk_eq, low, high, inRange]
  simp [tileModify, parseFin_val, clean, pass, stands, replaced_eq inRange carries agree,
    selects_eq_testBit]

theorem tileModify_free {groups : Nat} {b : TileBlock} (clean : h.clean = true)
    (low : 1 ≤ groups) (high : groups ≤ 31) (inRange : selectedInRange groups b = true)
    (free : (s.dir hd).working.slots.get k = none) :
    tileModify h (codeHead hd) k.val groups b s = refuse s .slotFree := by
  have pass : groupsOk groups b = true := by simp [groupsOk_eq, low, high, inRange]
  simp [tileModify, parseFin_val, clean, pass, free]

theorem tileRestack_eq {rank : Nat} (clean : h.clean = true) (rankOk : rank ≤ 31 ∨ rank = 255) :
    tileRestack h (codeHead hd) k.val rank s =
      if !(s.dir hd).working.defined k then refuse s .slotFree
      else (s.setWorking hd ((s.dir hd).working.restack k rank),
        .done .ok ((s.dir hd).working.restackRank k rank)) := by
  simp only [tileRestack, parseHead_code, parseFin_val, clean, restackRankOk_iff.2 rankOk.symm,
    Bool.not_true, Bool.or_self, Bool.false_eq_true, if_false]

theorem tileRetire_eq (clean : h.clean = true) :
    tileRetire h (codeHead hd) k.val s =
      if !(s.dir hd).working.defined k then refuse s .slotFree
      else (s.setWorking hd ((s.dir hd).working.retire k),
        .done .ok ((s.dir hd).working.rankOf k)) := by
  simp only [tileRetire, parseHead_code, parseFin_val, clean, Bool.not_true, Bool.false_eq_true,
    if_false]

theorem layoutClear_eq (clean : h.clean = true) :
    layoutClear h (codeHead hd) s
      = (s.setWorking hd .empty, .done .ok (s.dir hd).working.count) := by
  simp only [layoutClear, parseHead_code, clean, Bool.not_true, Bool.false_eq_true, if_false]

theorem layoutRevert_eq (clean : h.clean = true) :
    layoutRevert h (codeHead hd) s
      = (s.setWorking hd (s.dir hd).live, .done .ok (s.dir hd).live.count) := by
  simp only [layoutRevert, parseHead_code, clean, Bool.not_true, Bool.false_eq_true, if_false]

end

theorem Bank.defined_of_ne_none {b : Bank} {k : SlotId} (stands : b.slots.get k ≠ none) :
    b.defined k = true := Option.isSome_iff_ne_none.2 stands

/-! ### The obligations -/

theorem taken_dir (s : State) (hd : Head) : s.taken.dir hd = s.dir hd := rfl

theorem taken_tourEmpty (t : Tile) (s : State) : t.tourEmpty s.taken = t.tourEmpty s := rfl

/-- Settles O12: past its checks TILE_PLACE edits WORKING; step 1 refuses a rank past the list. -/
theorem tilePlaceInsertsAtItsRank : Obligations.TilePlaceInsertsAtItsRank := by
  intro h hd k rank b t s ready clean inRange carries range
  refine ⟨fun within geometry free bound => congrArg Host.Outcome.next (arrive_edits ready ?_),
    fun past notBottom => congrArg Host.Outcome.next (arrive_refused ready ?_)⟩
  · have rankOk : placeRankOk (s.dir hd).working rank = true :=
      placeRankOk_iff.2 (by unfold Bank.count; omega)
    rw [tilePlace_eq clean inRange carries, taken_dir, taken_tourEmpty, rankOk, geometryOk_iff.2 geometry,
      Bank.defined_eq_false.2 free, tourEmpty_eq_false_iff.2 bound]
    rfl
  · have rankFails : placeRankOk (s.dir hd).working rank = false :=
      Bool.eq_false_iff.2 fun ok => by
        have within := placeRankOk_iff.1 ok
        unfold Bank.count at within
        omega
    rw [tilePlace_eq clean inRange carries, taken_dir, rankFails]
    rfl

/-- Settles O13: each check of TILE_PLACE is reached once those before it are passed. -/
theorem tilePlaceChecksInOrder : Obligations.TilePlaceChecksInOrder := by
  intro h hd k rank b t s ready clean inRange carries w range
  have rankOk : placeRankOk (s.dir hd).working rank = true := placeRankOk_iff.2 range.symm
  refine ⟨fun fails => congrArg Host.Outcome.next (arrive_refused ready ?_),
    fun geometry stands => congrArg Host.Outcome.next (arrive_refused ready ?_),
    fun geometry free undefined => congrArg Host.Outcome.next (arrive_refused ready ?_)⟩
  all_goals rw [tilePlace_eq clean inRange carries, taken_dir, rankOk]
  · rw [geometryOk_eq_false fails]
    rfl
  · rw [geometryOk_iff.2 geometry, Bank.defined_of_ne_none stands]
    rfl
  · rw [geometryOk_iff.2 geometry, Bank.defined_eq_false.2 free, taken_tourEmpty,
      tourEmpty_eq_true undefined]
    rfl

/-- Settles O14: the record as modified is the one that `Carries` and `AgreeElsewhere` fix, and it passes
the checks in their order. -/
theorem tileModifyReplacesSelectedGroups : Obligations.TileModifyReplacesSelectedGroups := by
  intro h hd k groups b s ready clean low high inRange
  refine ⟨fun free => congrArg Host.Outcome.next (arrive_refused ready
      (tileModify_free (s := s.taken) clean low high inRange free)),
    fun old t stands carries agree => ?_⟩
  have eq := tileModify_eq (s := s.taken) clean low high inRange stands carries agree
  rw [taken_tourEmpty] at eq
  refine ⟨fun fails => congrArg Host.Outcome.next (arrive_refused ready (eq.trans ?_)),
    fun geometry selected undefined => congrArg Host.Outcome.next (arrive_refused ready (eq.trans ?_)),
    fun geometry bound => congrArg Host.Outcome.next (arrive_edits ready (eq.trans ?_))⟩
  · rw [geometryOk_eq_false fails]
    rfl
  · rw [geometryOk_iff.2 geometry, selected, tourEmpty_eq_true undefined]
    rfl
  · have passes : (groups.testBit 3 && t.tourEmpty s) = false :=
      bound.elim (fun off => by rw [off, Bool.false_and])
        (fun defined => by rw [tourEmpty_eq_false_iff.2 defined, Bool.and_false])
    rw [geometryOk_iff.2 geometry, passes]
    rfl

theorem Bank.restackRank_eq (b : Bank) (k : SlotId) (rank : Nat) :
    b.restackRank k rank =
      if rank ≤ (b.orderWithout k).length then rank else (b.orderWithout k).length := by
  unfold Bank.restackRank
  split <;> omega

/-- Settles O15, command by command. -/
theorem restackRetireClearRevert : Obligations.RestackRetireClearRevert := by
  intro h hd k rank s ready clean w shorter r
  have rank_eq : w.restackRank k rank = r := Bank.restackRank_eq w k rank
  have restack (rankOk : rank ≤ 31 ∨ rank = 255) := tileRestack_eq (h := h) (hd := hd) (k := k)
    (s := s.taken) clean rankOk
  have retire := tileRetire_eq (h := h) (hd := hd) (k := k) (s := s.taken) clean
  rw [taken_dir] at retire
  refine ⟨fun stands rankOk => congrArg Host.Outcome.next (arrive_edits ready ?_),
    fun free rankOk => congrArg Host.Outcome.next (arrive_refused ready ?_),
    fun stands => congrArg Host.Outcome.next (arrive_edits ready ?_),
    fun free => congrArg Host.Outcome.next (arrive_refused ready ?_),
    congrArg Host.Outcome.next (arrive_edits ready (layoutClear_eq clean)),
    congrArg Host.Outcome.next (arrive_edits ready (layoutRevert_eq clean))⟩
  · rw [restack rankOk, taken_dir, Bank.defined_of_ne_none stands, ← rank_eq]
    rfl
  · rw [restack rankOk, taken_dir, Bank.defined_eq_false.2 free]
    rfl
  · rw [retire, Bank.defined_of_ne_none stands]
    rfl
  · rw [retire, Bank.defined_eq_false.2 free]
    rfl

end Sys2Proof.Machine
end

section
/-! PROOF. The rank orders (R11, O53): each edit of a bank keeps its order, and every step changes the
directories only by such edits, by whole banks, or by ending commits. -/

namespace Sys2Proof.Machine

/-! ### One bank -/

theorem insertAt_perm {α : Type} (l : List α) (r : Nat) (x : α) : (insertAt l r x).Perm (x :: l) := by
  have moved : (insertAt l r x).Perm (x :: (l.take r ++ l.drop r)) := List.perm_middle
  rwa [List.take_append_drop] at moved

theorem mem_insertAt {α : Type} {l : List α} {r : Nat} {x y : α} :
    y ∈ insertAt l r x ↔ y = x ∨ y ∈ l := by
  rw [(insertAt_perm l r x).mem_iff, List.mem_cons]

theorem nodup_insertAt {α : Type} {l : List α} {r : Nat} {x : α} :
    (insertAt l r x).Nodup ↔ x ∉ l ∧ l.Nodup := by
  rw [(insertAt_perm l r x).nodup_iff, List.nodup_cons]

theorem Bank.mem_orderWithout {b : Bank} {k slot : SlotId} :
    slot ∈ b.orderWithout k ↔ slot ∈ b.order ∧ slot ≠ k := by
  simp [Bank.orderWithout]

namespace Bank.RankOk

theorem empty : Bank.empty.RankOk := by
  refine ⟨List.nodup_nil, fun slot => ?_⟩
  simp [Bank.empty]

/-- R12: a slot that was FREE enters the order. -/
theorem place {b : Bank} (ok : b.RankOk) {k : SlotId} (free : b.slots.get k = none) (t : Tile)
    (r : Nat) : (b.place k t r).RankOk := by
  obtain ⟨once, held⟩ := ok
  have absent : k ∉ b.order := by simp [held, free]
  refine ⟨nodup_insertAt.2 ⟨absent, once⟩, fun slot => ?_⟩
  simp only [Bank.place, mem_insertAt, Table.get_set]
  split
  · next here => simp [here]
  · next other => simp [other, held]

/-- R16: a DEFINED slot keeps its rank. -/
theorem replace {b : Bank} (ok : b.RankOk) {k : SlotId} (stands : (b.slots.get k).isSome = true)
    (t : Tile) : (b.replace k t).RankOk := by
  obtain ⟨once, held⟩ := ok
  refine ⟨once, fun slot => ?_⟩
  simp only [Bank.replace, held, Table.get_set]
  split
  · next here => simp [here, stands]
  · rfl

/-- R13: a DEFINED slot leaves the order and enters it again. -/
theorem restack {b : Bank} (ok : b.RankOk) {k : SlotId} (stands : (b.slots.get k).isSome = true)
    (rank : Nat) : (b.restack k rank).RankOk := by
  obtain ⟨once, held⟩ := ok
  have shorter : k ∉ b.orderWithout k ∧ (b.orderWithout k).Nodup :=
    ⟨fun mem => (mem_orderWithout.1 mem).2 rfl, once.filter _⟩
  refine ⟨nodup_insertAt.2 shorter, fun slot => ?_⟩
  simp only [Bank.restack, mem_insertAt, mem_orderWithout, held]
  by_cases here : slot = k
  · simp [here, stands]
  · simp [here]

/-- R13, R19: a slot that becomes FREE leaves the order. -/
theorem retire {b : Bank} (ok : b.RankOk) (k : SlotId) : (b.retire k).RankOk := by
  obtain ⟨once, held⟩ := ok
  refine ⟨once.filter _, fun slot => ?_⟩
  simp only [Bank.retire, mem_orderWithout, held, Table.get_set]
  split
  · next here => simp [here]
  · next other => simp [other]

end Bank.RankOk

/-! ### The directories -/

theorem Directory.RankOk.unanswered {d : Directory} (ok : d.RankOk) : d.unanswered.RankOk := by
  obtain ⟨working, live, pending⟩ := ok
  refine ⟨working, live, fun c hc => ?_⟩
  obtain ⟨c', stands, rfl⟩ := Option.map_eq_some_iff.1 hc
  exact pending c' stands

namespace State.RanksOk
variable {s t : State}

theorem of_dirs (ok : s.RanksOk) (same : t.dirs = s.dirs) : t.RanksOk := by
  intro h
  show (t.dirs.get h).RankOk
  rw [same]
  exact ok h

theorem setDir (ok : s.RanksOk) (h : Head) {d : Directory} (new : d.RankOk) : (s.setDir h d).RanksOk := by
  intro j
  rw [State.setDir_dir]
  split
  · exact new
  · exact ok j

theorem setWorking (ok : s.RanksOk) (h : Head) {b : Bank} (new : b.RankOk) :
    (s.setWorking h b).RanksOk :=
  ok.setDir h ⟨new, (ok h).2⟩

theorem setLive (ok : s.RanksOk) (h : Head) {b : Bank} (new : b.RankOk) :
    (s.setDir h { s.dir h with live := b }).RanksOk :=
  ok.setDir h ⟨(ok h).1, new, (ok h).2.2⟩

theorem setCommit (ok : s.RanksOk) (h : Head) {o : Option CommitRecord}
    (new : ∀ c, o = some c → c.bank.RankOk) :
    (s.setDir h { s.dir h with commit := o }).RanksOk :=
  ok.setDir h ⟨(ok h).1, (ok h).2.1, new⟩

theorem reset : State.reset.RanksOk := by
  intro h
  have dir : State.reset.dir h = .reset := PerHead.get_both _ _
  rw [dir]
  exact ⟨.empty, .empty, nofun⟩

/-- R25, R29: a commit that ends unapplied leaves the banks. -/
theorem endCommit (ok : s.RanksOk) (h : Head) (r : Result) : (endCommit h r s).RanksOk := by
  have ended : (s.setDir h { s.dir h with commit := none }).RanksOk := ok.setCommit h nofun
  unfold Machine.endCommit
  split
  · exact ok
  dsimp only
  split
  · exact ended.of_dirs rfl
  · exact ended

/-- R26: a bank that becomes LIVE. -/
theorem applyBank (ok : s.RanksOk) (h : Head) {new : Bank} (newOk : new.RankOk) :
    (applyBank h new s).RanksOk := by
  have live := ok.setLive h newOk
  refine live.of_dirs ?_
  unfold Machine.applyBank
  rw [carryOver_records]
  rfl

/-- R26, R27: the pending bank becomes LIVE. -/
theorem applyCommit (ok : s.RanksOk) (h : Head) (detail : Nat) : (applyCommit h detail s).RanksOk := by
  unfold Machine.applyCommit
  split
  · exact ok
  · next c pending =>
      have ended : (s.setDir h { s.dir h with commit := none }).RanksOk := ok.setCommit h nofun
      exact (ended.applyBank h ((ok h).2.2 c pending)).of_dirs rfl

theorem completeStop (ok : s.RanksOk) (h : Head) : (completeStop h s).RanksOk := by
  have stopped (r : HeadRecord) : ((releaseClaims h s).setHead h r).RanksOk := ok.of_dirs rfl
  exact (stopped _).applyCommit h 0

theorem portReset (ok : s.RanksOk) : s.portReset.RanksOk := fun h => by
  cases h with
  | a => exact (ok .a).unanswered
  | b => exact (ok .b).unanswered

end State.RanksOk

/-! ### The commands -/

/-- R11: what a ring command's effect does to the banks. -/
theorem RingEffect.ranksOk {s u : State} (e : RingEffect s u) (ok : s.RanksOk) : u.RanksOk := by
  have working : ∀ hd, (s.dir hd).working.RankOk := fun hd => (ok hd).1
  cases e with
  | place hd k t rank _ _ free => exact ok.setWorking hd ((working hd).place free t _)
  | modify hd k old groups tile stands =>
      exact ok.setWorking hd ((working hd).replace (by rw [stands]; rfl) _)
  | restack hd k rank stands => exact ok.setWorking hd ((working hd).restack stands rank)
  | retire hd k => exact ok.setWorking hd ((working hd).retire k)
  | clear hd => exact ok.setWorking hd .empty
  | revert hd => exact ok.setWorking hd (ok hd).2.1
  | commitNow hd => exact (ok.endCommit hd _).applyBank hd (working hd)
  | commitLater hd =>
      exact (ok.endCommit hd _).setCommit hd fun c new => by cases new; exact working hd
  | cancel hd => exact ok.endCommit hd _
  | startHead => exact ok.of_dirs rfl
  | stopInFrame => exact ok.of_dirs rfl
  | stopNow hd => exact ok.completeStop hd
  | nothing => exact ok
  | colour => exact ok.of_dirs rfl
  | background => exact ok.of_dirs rfl
  | configure i => exact ok.of_dirs (((VideoFrame.refl s).setPage i _).changeSource i _).dirs
  | disable i => exact ok.of_dirs (((VideoFrame.refl s).setPage i _).changeSource i _).dirs
  | lockParams => exact ok.of_dirs rfl
  | masks => exact ok.of_dirs rfl
  | defineTour => exact ok.of_dirs rfl
  | redefineTour => exact ok.of_dirs rfl
  | retireTour => exact ok.of_dirs rfl
  | control => exact ok.of_dirs (controlRuntime_tourFrame ..).dirs
  | line l r => exact ok.of_dirs (lineSet_alarmFrame l r s).dirs
  | rule n => exact ok.of_dirs (removeEntryOf_alarmFrame n s).dirs
  | trigger n r u position stands fires =>
      have frame := fire_alarmFrame .software n r s
      rw [fires] at frame
      exact ok.of_dirs frame.dirs
  | clearEntries => exact ok.of_dirs ((AlarmFrame.refl s).replaceList _ _ _).dirs

/-- A state after a block is the state before it or the one its effect leaves. -/
theorem Judged.effect {s : State} {formed : Prop} {reply : Reply} (j : Judged s formed reply) :
    RingEffect s reply.1 := by
  cases j with
  | badArgument => exact .nothing
  | refused => exact .nothing
  | done _ e => exact e
  | deferred _ e => exact e
  | counts => exact .nothing
  | running => exact .nothing

/-- The execution of any command the processor may hold is an effect and a change of the port. -/
theorem execute_effect (i : Instr) (s : State) :
    ∃ u p, RingEffect s u ∧ execute i s = u.setPort p := by
  cases ring : ringHeader i with
  | none => exact ⟨s, s.port, .nothing, by rw [execute_other ring]; rfl⟩
  | some h =>
      obtain ⟨code, coded⟩ := ring_coded ring
      obtain ⟨block, by_block, judged⟩ := ring_hasBlock ring coded
      exact ⟨_, _, (judged s).effect, by rw [by_block]; rfl⟩

namespace State.RanksOk
variable {s : State}

theorem execute (ok : s.RanksOk) (i : Instr) : (execute i s).RanksOk := by
  obtain ⟨u, p, effect, eq⟩ := execute_effect i s
  rw [eq]
  exact (effect.ranksOk ok).of_dirs rfl

theorem arrive (ok : s.RanksOk) (i : Instr) : (arrive i (Machine.execute i) s).RanksOk := by
  unfold Machine.arrive
  split
  · split
    · have taken : s.taken.RanksOk := ok.of_dirs rfl
      exact (taken.execute i).of_dirs rfl
    · exact ok.of_dirs rfl
  · exact ok

theorem leaveWaiting (ok : s.RanksOk) {t : State} (run : exec .leaveWaiting s = .next t) :
    t.RanksOk := by
  cases run
  split
  · split
    · have took : (s.setPort s.port.took).RanksOk := ok.of_dirs rfl
      exact (took.execute _).of_dirs rfl
    · exact ok
  · exact ok

/-- R169: a write of the register window reaches the directories through PORT_RESET alone. -/
theorem writeRegister (ok : s.RanksOk) (offset : Nat) (v : Word) :
    (s.writeRegister offset v).RanksOk := by
  unfold State.writeRegister
  split
  · split
    · exact ok.portReset.of_dirs rfl
    · exact ok.of_dirs rfl
  · split_ifs <;> exact ok.of_dirs rfl

theorem frameStart (ok : s.RanksOk) (h : Head) {t : State} (run : exec (.frameStart h) s = .next t) :
    t.RanksOk := by
  cases run
  split
  · exact (ok.applyCommit h _).of_dirs rfl
  · exact ok

theorem frameEnd (ok : s.RanksOk) (h : Head) {t : State} (run : exec (.frameEnd h) s = .next t) :
    t.RanksOk := by
  cases run
  split
  · split
    · exact (ok.completeStop h).of_dirs rfl
    · exact ok.of_dirs rfl
  · exact ok

theorem tick (ok : s.RanksOk) : (tick s).RanksOk := ok.of_dirs (tick_alarmFrame s).dirs

/-- The transfers of the part on the host bus change the port and the notices. -/
theorem resultWrite (ok : s.RanksOk) {t : State} (run : exec .resultWrite s = .next t) : t.RanksOk := by
  cases run
  split
  · split
    · unfold writeResult
      dsimp only
      split <;> exact ok.of_dirs rfl
    · exact ok
  · exact ok

end State.RanksOk

/-- R11: the rows that are no commands of the ring. A transfer, a write of the register window or an event
reaches the directories through PORT_RESET, a frame's start or end, a command carried out, or a device
reset alone. -/
theorem State.RanksOk.event {c : Instr} {s t : State} (ok : s.RanksOk) (event : ringHeader c = none)
    (run : exec c s = .next t) : t.RanksOk := by
  cases c with
  | runSet => cases run; exact ok.of_dirs rfl
  | runClear => cases run; exact ok.of_dirs rfl
  | completionInterruptMode => cases run; exact ok.of_dirs rfl
  | portReset => cases run; exact ok.portReset.of_dirs rfl
  | restart => cases run; exact ok.of_dirs rfl
  | cmdSize => cases run; exact ok.of_dirs rfl
  | cplSize => cases run; exact ok.of_dirs rfl
  | cmdProducer => cases run; exact ok.of_dirs rfl
  | cplRead => cases run; exact ok.of_dirs rfl
  | cause => cases run; exact ok.of_dirs rfl
  | registerWrite offset enables v =>
    cases run
    split
    · exact ok.writeRegister offset v
    · exact ok
  | fetch record => cases run; exact ok.arrive _
  | leaveWaiting => exact ok.leaveWaiting run
  | resultWrite => exact ok.resultWrite run
  | completionWrite =>
    cases run
    split
    · exact ok.of_dirs rfl
    · exact ok
  | busFault =>
    cases run
    split
    · split
      · exact ok.of_dirs rfl
      · exact ok
    · exact ok
  | frameStart h => exact ok.frameStart h run
  | frameEnd h => exact ok.frameEnd h run
  | timingCode =>
    cases run
    split
    · exact ok.of_dirs (takeCodes_videoFrame _ _ s).dirs
    · exact ok
  | lossTimerExpiry i =>
    cases run
    split
    · exact ok.of_dirs (((VideoFrame.refl s).setPage i _).changeSource i _).dirs
    · exact ok
  | dwellExpiry =>
    cases run
    split
    · split
      · exact ok.of_dirs (advanceRuntime_tourFrame ..).dirs
      · exact ok
    · exact ok
  | levelChange l x =>
    cases run
    have set (r : LineRecord) : AlarmFrame s (s.setLine l r) := (AlarmFrame.refl s).setLine l r
    split
    · exact ok.of_dirs ((set _).trans (takeSample_alarmFrame l _)).dirs
    · exact ok.of_dirs rfl
  | debounceExpiry l =>
    cases run
    split
    · exact ok.of_dirs (lineCompares_alarmFrame l s).dirs
    · exact ok
  | holdExpiry =>
    cases run
    split
    · split
      · exact ok.of_dirs ((AlarmFrame.refl s).replaceList _ _ _).dirs
      · exact ok
    · exact ok
  | deviceReset => cases run; exact State.RanksOk.reset.of_dirs rfl
  | _ => cases event

theorem State.RanksOk.exec {c : Instr} {s t : State} (ok : s.RanksOk) (run : exec c s = .next t) :
    t.RanksOk := by
  cases ring : ringHeader c with
  | none => exact ok.event ring run
  | some h =>
      cases (exec_ring ring s).symm.trans run
      exact ok.arrive c

/-- Settles O53: a millisecond leaves the directories, and every command keeps the orders. -/
theorem everyStepKeepsTheRankOrders : Obligations.EveryStepKeepsTheRankOrders := by
  intro s t ok run
  unfold step at run
  split at run
  · rw [← Host.Outcome.next.inj run]
    exact ok.tick
  · have popped (rest : List Instr) : ({ s with pending := rest } : State).RanksOk := ok.of_dirs rfl
    exact (popped _).exec run

end Sys2Proof.Machine
end

section
/-! PROOF. What a command can do to the part: one case for each kind of event, under the checks it has
passed, and the induction over steps that every invariant uses. -/

namespace Sys2Proof.Machine

/-- What a command of the queue that is answered leaves of state `s`. A ring command changes the records by
its `RingEffect`, between two changes of the port; a host write, a fault and a wait reach the port alone. -/
inductive ExecEffect (s : State) : State → Prop where
  /-- R148, R149: a ring command is carried out. -/
  | command (p q : Port) {u : State} (effect : RingEffect (s.setPort p) u) : ExecEffect s (u.setPort q)
  | port (p : Port) : ExecEffect s (s.setPort p)
  /-- R157. -/
  | portReset (p : Port) : ExecEffect s (s.portReset.setPort p)
  /-- R151, R161. -/
  | resultWrite (p : Port) (o : Option (NoticeKey × NoticeValue)) :
      ExecEffect s { s with port := p, notices := s.notices.reported o }
  /-- R43. -/
  | frameStart (h : Head) (running : (s.head h).state = .running)
      (between : (s.head h).inFlight = false) :
      ExecEffect s (beginFrame h (applyCommit h (nextFrame s h).toNat s)).settled
  /-- R48. -/
  | frameEnd (h : Head) (running : (s.head h).state = .running) (frame : (s.head h).inFlight = true) :
      ExecEffect s (releaseClaims h s).settled
  /-- R48, R41. -/
  | lastFrameEnd (h : Head) (stopping : (s.head h).state = .stopping)
      (frame : (s.head h).inFlight = true) : ExecEffect s (completeStop h s).settled
  /-- R62. -/
  | timingCodes (p : PortId) (i : SourceId) (owns : s.owner p = some i)
      (codes : List (List Byte × Byte)) :
      ExecEffect s (codes.foldl (fun t c => takeCode i c.2 c.1 t) s)
  /-- R68. -/
  | lossExpiry (i : SourceId) (on : (s.source i).state ≠ .off)
      (due : (s.source i).lossTimer = some 0) :
      ExecEffect s ((s.setPage i (s.page i).abandoned).changeSource i (s.source i).expired)
  /-- R107. -/
  | dwellExpiry (h : Head) (slot : SlotId) (t : Tour) (r : Runtime)
      (touring : s.touring h slot = some (t, r))
      (due : r.state = .running ∧ (s.head h).state ≠ .stopped ∧ s.list h slot = []
        ∧ r.remaining = 0) :
      ExecEffect s (advanceRuntime h slot t r s)
  /-- R116: the pin of a line moves, and no sample falls there. -/
  | pin (l : LineId) (high : Bool) : ExecEffect s (s.setLine l { s.line l with pinHigh := high })
  /-- R116: the pin of a line moves, and the line samples it. -/
  | sample (l : LineId) (high : Bool) (due : (s.line l).sampled = false) :
      ExecEffect s (takeSample l (s.setLine l { s.line l with pinHigh := high, sampled := true }))
  /-- R118. -/
  | debounceExpiry (l : LineId) (enabled : (s.line l).enabled = true)
      (due : (s.line l).timer = some 0) : ExecEffect s (lineCompares l s)
  /-- R136. -/
  | holdExpiry (n : RuleId) (r : Rule) (stands : s.rule n = some r) :
      ExecEffect s
        (s.replaceList r.head r.slot ((s.list r.head r.slot).filter (fun e => !e.expired n)))
  /-- R158. -/
  | deviceReset : ExecEffect s { State.reset with
      pending := s.pending, store := s.store, lines := s.lines.map LineRecord.deviceReset }

namespace ExecEffect

theorem nothing (s : State) : ExecEffect s s := .port s.port

theorem carriedOut (i : Instr) (s : State) (p : Port) : ExecEffect s (execute i (s.setPort p)).settled := by
  obtain ⟨u, q, effect, eq⟩ := execute_effect i (s.setPort p)
  rw [eq]
  exact .command (u := u) p _ effect

theorem arrive (i : Instr) (s : State) : ExecEffect s (arrive i (execute i) s) := by
  unfold Machine.arrive
  split
  · split
    · exact carriedOut i s _
    · exact .port _
  · exact .nothing s

theorem leaveWaiting {s t : State} (run : exec .leaveWaiting s = .next t) : ExecEffect s t := by
  cases run
  split
  · split
    · exact carriedOut _ s _
    · exact .nothing s
  · exact .nothing s

/-- R169: a whole-word write reaches the port alone, but for PORT_RESET. -/
theorem writeRegister (offset : Nat) (v : Word) (s : State) : ExecEffect s (s.writeRegister offset v) := by
  unfold State.writeRegister
  split
  · split
    · exact .portReset _
    · exact .port _
  · split_ifs
    all_goals exact .port _

theorem resultWritten {s t : State} (run : exec .resultWrite s = .next t) : ExecEffect s t := by
  cases run
  split
  · split
    · next r rest _ =>
        unfold writeResult
        dsimp only
        split <;> exact .resultWrite _ r.notice
    · exact .nothing s
  · exact .nothing s

theorem frameEnded {s t : State} {h : Head} (run : exec (.frameEnd h) s = .next t) :
    ExecEffect s t := by
  cases run
  split
  · next taken =>
      obtain ⟨frame, drawing⟩ := taken
      split
      · next stopping => exact .lastFrameEnd h stopping frame
      · next going =>
          refine .frameEnd h ?_ frame
          cases state : (s.head h).state with
          | running => rfl
          | stopping => exact absurd state going
          | stopped => exact absurd state drawing
  · exact .nothing s

/-- The rows that are no commands of the ring. -/
theorem of_event {c : Instr} {s t : State} (event : ringHeader c = none) (run : exec c s = .next t) :
    ExecEffect s t := by
  cases c with
  | runSet => cases run; exact .port _
  | runClear => cases run; exact .port _
  | completionInterruptMode => cases run; exact .port _
  | portReset => cases run; exact .portReset _
  | restart => cases run; exact .port _
  | cmdSize => cases run; exact .port _
  | cplSize => cases run; exact .port _
  | cmdProducer => cases run; exact .port _
  | cplRead => cases run; exact .port _
  | cause => cases run; exact .port _
  | registerWrite offset enables v =>
    cases run
    split
    · exact writeRegister offset v s
    · exact .nothing s
  | fetch record => cases run; exact arrive _ s
  | leaveWaiting => exact leaveWaiting run
  | resultWrite => exact resultWritten run
  | completionWrite =>
    cases run
    split
    · exact .port _
    · exact .nothing s
  | busFault =>
    cases run
    split
    · split
      · exact .port _
      · exact .nothing s
    · exact .nothing s
  | frameStart h =>
    cases run
    split
    · next taken => exact .frameStart h taken.1 taken.2
    · exact .nothing s
  | frameEnd h => exact frameEnded run
  | timingCode p =>
    cases run
    split
    · next i owns => exact .timingCodes p i owns _
    · exact .nothing s
  | lossTimerExpiry i =>
    cases run
    split
    · next due => exact .lossExpiry i due.1 due.2
    · exact .nothing s
  | dwellExpiry h slot =>
    cases run
    split
    · next t r touring =>
        split
        · next due => exact .dwellExpiry h slot t r touring due
        · exact .nothing s
    · exact .nothing s
  | levelChange l change =>
    cases run
    split
    · next falls =>
        have ⟨_, due⟩ : change.atSample = true ∧ (s.line l).sampled = false := by simpa using falls
        exact .sample l change.high due
    · exact .pin l change.high
  | debounceExpiry l =>
    cases run
    split
    · next due => exact .debounceExpiry l due.1 due.2
    · exact .nothing s
  | holdExpiry n =>
    cases run
    split
    · next r stands =>
        split
        · exact .holdExpiry n r stands
        · exact .nothing s
    · exact .nothing s
  | deviceReset => cases run; exact .deviceReset
  | _ => cases event

theorem of_exec {c : Instr} {s t : State} (run : exec c s = .next t) : ExecEffect s t := by
  cases ring : ringHeader c with
  | none => exact of_event ring run
  | some h =>
      cases (exec_ring ring s).symm.trans run
      exact arrive c s

end ExecEffect

/-- A property of the part that the queue does not touch, that a millisecond keeps and every effect of a
command keeps, is kept by every step. -/
theorem step_keeps {P : State → Prop} (popped : ∀ s rest, P s → P { s with pending := rest })
    (time : ∀ s, P s → P (tick s)) (effect : ∀ s t, ExecEffect s t → P s → P t) {s t : State}
    (ok : P s) (run : step s = .next t) : P t := by
  unfold step at run
  split at run
  · rw [← Host.Outcome.next.inj run]
    exact time s ok
  · next rest _ => exact effect _ t (.of_exec run) (popped s rest ok)

end Sys2Proof.Machine
end

section
/-! PROOF. What the end and the application of a pending commit leave of the part (R25 to R29, R31, R32),
for the commands and the frame events alike. -/

namespace Sys2Proof.Machine

/-! ### A commit that ends unapplied (R25, R29) -/

/-- R25, R29: the completions of a commit record that ends unapplied: its own where it is ANSWERED. -/
def endAnswers (r : Result) : Option CommitRecord → List Completion
  | some c =>
      if c.answered then [{ tag := c.tag, code := commitCode, result := r, detail := 0, detail2 := 0 }]
      else []
  | none => []

/-- The directory without its commit record. -/
def Directory.ended (d : Directory) : Directory := { d with commit := none }

theorem Directory.ended_eq {d : Directory} (none_pending : d.commit = none) : d.ended = d := by
  obtain ⟨working, live, commit⟩ := d
  cases none_pending
  rfl

theorem endCommit_none {h : Head} {s : State} (none_pending : (s.dir h).commit = none) (r : Result) :
    endCommit h r s = s := by
  unfold endCommit
  rw [none_pending]

/-- The record ends, and its completions join the queue. -/
theorem endCommit_eq (h : Head) (r : Result) (s : State) : ∃ mark,
    endCommit h r s = (s.setDir h (s.dir h).ended).setPort
      { s.port with queue := s.port.queue ++ endAnswers r (s.dir h).commit, mark } := by
  cases pending : (s.dir h).commit with
  | none =>
      refine ⟨s.port.mark, ?_⟩
      rw [endCommit_none pending, Directory.ended_eq pending, State.setDir_self, endAnswers,
        List.append_nil, State.setPort_self]
  | some c =>
      unfold endCommit endAnswers
      rw [pending]
      dsimp only
      split
      · exact ⟨true, rfl⟩
      · exact ⟨s.port.mark, by rw [List.append_nil]; rfl⟩

/-! ### A commit that is applied (R26 to R28) -/

/-- R28: the completions of a deferred commit's application. -/
def commitAnswers (c : CommitRecord) (detail : Nat) : List Completion :=
  if c.answered = true ∧ c.quiet = false then
    [{ tag := c.tag, code := commitCode, result := .ok, detail, detail2 := 0 }]
  else []

theorem commitAnswer_eq (c : CommitRecord) (detail : Nat) (p : Port) :
    commitAnswer c detail p = { p with
      queue := p.queue ++ commitAnswers c detail
      mark := p.mark || (c.answered && !c.quiet) } := by
  unfold commitAnswer commitAnswers
  cases c.answered <;> cases c.quiet <;> simp [Port.enqueue]

theorem applyCommit_none {h : Head} {s : State} (none_pending : (s.dir h).commit = none) (detail : Nat) :
    applyCommit h detail s = s := by
  unfold applyCommit
  rw [none_pending]

theorem applyCommit_some {h : Head} {s : State} {c : CommitRecord} (pending : (s.dir h).commit = some c)
    (detail : Nat) : applyCommit h detail s =
      (applyBank h c.bank (s.setDir h (s.dir h).ended)).setPort
        (commitAnswer c detail (applyBank h c.bank (s.setDir h (s.dir h).ended)).port) := by
  unfold applyCommit
  rw [pending]
  rfl

/-- R104: a LIVE slot that binds no tour has no runtime. -/
theorem State.ToursOk.idle {s : State} (tours : s.ToursOk) (h : Head) (slot : SlotId)
    (unbound : ((s.dir h).live.slots.get slot).bind (fun o => o.tour) = none) :
    s.runtime h slot = none := by
  obtain ⟨-, -, bound, -⟩ := tours
  by_contra present
  obtain ⟨tile, y, live, tour⟩ := (bound h slot).1 (Option.isSome_iff_ne_none.2 present)
  rw [show (s.dir h).live.slots.get slot = some tile from live] at unbound
  exact absurd (tour.symm.trans unbound) nofun

/-- R26, R28, R32: the application of the pending commit `c` of head `h` takes `s` to `t`. -/
structure Applied (h : Head) (c : CommitRecord) (detail : Nat) (s t : State) : Prop where
  records : t = { s with
    port := t.port, runtimes := t.runtimes, lists := t.lists, notices := t.notices
    dirs := s.dirs.set h { s.dir h with live := c.bank, commit := none }
    heads := s.heads.set h { s.head h with
      view := { (s.head h).view with shown := (t.head h).view.shown } } }
  carried : CarriedOver h (s.dir h).live c.bank s t
  noticed : Noticed s t
  port : t.port = { s.port with
    cause := { s.port.cause with notice := t.port.cause.notice }
    queue := s.port.queue ++ commitAnswers c detail
    mark := s.port.mark || (c.answered && !c.quiet) }

theorem applyCommit_applied {h : Head} {s : State} {c : CommitRecord} (tours : s.ToursOk)
    (pending : (s.dir h).commit = some c) (detail : Nat) :
    Applied h c detail s (applyCommit h detail s) := by
  obtain ⟨records, carried, port, noticed, -⟩ :=
    applyBank_spec h c.bank (s.setDir h (s.dir h).ended) (by
      rw [State.setDir_dir_same]; exact tours.idle h)
  rw [State.setDir_dir_same] at records carried
  rw [applyCommit_some pending, commitAnswer_eq]
  generalize applyBank h c.bank (s.setDir h (s.dir h).ended) = u at *
  refine ⟨?_, carried, noticed, ?_⟩
  · have moved := congrArg (State.setPort · { u.port with
      queue := u.port.queue ++ commitAnswers c detail
      mark := u.port.mark || (c.answered && !c.quiet) }) records
    refine moved.trans ?_
    simp only [State.setPort, State.setDir, PerHead.set_set]
    rfl
  · show ({ u.port with queue := _, mark := _ } : Port) = _
    rw [port]
    rfl

/-! ### The end of a stop (R27, R41, R59) -/

/-- The record of a head at the end of its stop, before its pending commit is applied. -/
def HeadRecord.stopCompleted (r : HeadRecord) : HeadRecord :=
  { r with state := .stopped, inFlight := false, sending := false, claims := noClaims }

theorem completeStop_eq (h : Head) (s : State) :
    completeStop h s = applyCommit h 0 (s.setHead h (s.head h).stopCompleted) := by
  unfold completeStop releaseClaims
  dsimp only
  rw [State.setHead_twice, State.setHead_head_same]
  rfl

/-- R27, R41: the end of a stop with a commit pending. -/
theorem completeStop_applied {h : Head} {s : State} {c : CommitRecord} (tours : s.ToursOk)
    (pending : (s.dir h).commit = some c) :
    Applied h c 0 (s.setHead h (s.head h).stopCompleted) (completeStop h s) := by
  have same : (s.setHead h (s.head h).stopCompleted).ToursOk := tours
  rw [completeStop_eq]
  exact applyCommit_applied same pending 0

/-- A carry-over starts from the latched view of its head, whatever else the head's record holds. -/
theorem CarriedOver.of_setHead {h : Head} {old new : Bank} {s t : State} {r : HeadRecord}
    (view : r.view = (s.head h).view) (carried : CarriedOver h old new (s.setHead h r) t) :
    CarriedOver h old new s t := by
  obtain ⟨runtimes, lists, cancelled, others, shown, heads, arrival⟩ := carried
  rw [State.setHead_head_same, view] at shown
  exact ⟨runtimes, lists, cancelled, others, shown, heads, arrival⟩

end Sys2Proof.Machine
end

section
/-! PROOF. The heads, their commits and their claims (R27, R39, R41, R46, O55): most events leave a head's
state and frame and at most end its commit; the start, the stop and the frames of a head are taken one by
one. -/

namespace Sys2Proof.Machine

/-! ### One head -/

/-- R27, R39, R41, R46, R59: what `State.HeadsOk` asks of one head and its commit record. -/
structure HeadRecord.Consistent (r : HeadRecord) (commit : Option CommitRecord) : Prop where
  stopped : r.state = .stopped → r.inFlight = false ∧ commit = none ∧ r.sending = false
  stopping : r.state = .stopping → r.inFlight = true
  sends : r.inFlight = true → r.sending = true
  unclaimed : r.inFlight = false → ∀ i, r.claims.get i = none

theorem State.headsOk_iff {s : State} :
    s.HeadsOk ↔ ∀ h, (s.head h).Consistent (s.dir h).commit :=
  forall_congr' fun _ =>
    ⟨fun ⟨stopped, stopping, sends, unclaimed⟩ => ⟨stopped, stopping, sends, unclaimed⟩,
      fun ⟨stopped, stopping, sends, unclaimed⟩ => ⟨stopped, stopping, sends, unclaimed⟩⟩

/-- From `s` to `t` head `h` keeps its state, its frame, its port's level and its claims, and no commit
comes to be pending. -/
structure HeadKept (h : Head) (s t : State) : Prop where
  state : (t.head h).state = (s.head h).state
  inFlight : (t.head h).inFlight = (s.head h).inFlight
  sending : (t.head h).sending = (s.head h).sending
  claims : (t.head h).claims = (s.head h).claims
  commit : (s.dir h).commit = none → (t.dir h).commit = none

namespace HeadKept
variable {h : Head} {s t u : State}

theorem refl (s : State) : HeadKept h s s := ⟨rfl, rfl, rfl, rfl, id⟩

theorem trans (a : HeadKept h s t) (b : HeadKept h t u) : HeadKept h s u :=
  ⟨b.state.trans a.state, b.inFlight.trans a.inFlight, b.sending.trans a.sending,
    b.claims.trans a.claims, b.commit ∘ a.commit⟩

theorem of_same (heads : t.head h = s.head h) (commit : (s.dir h).commit = none → (t.dir h).commit = none) :
    HeadKept h s t :=
  ⟨by rw [heads], by rw [heads], by rw [heads], by rw [heads], commit⟩

/-- An event that reaches neither the heads nor the directories. -/
theorem of_apart (heads : t.heads = s.heads) (dirs : t.dirs = s.dirs) : HeadKept h s t := by
  refine of_same (congrArg (PerHead.get · h) heads) fun none_pending => ?_
  show (t.dirs.get h).commit = none
  rw [dirs]
  exact none_pending

theorem alarm (frame : AlarmFrame s t) : HeadKept h s t :=
  of_apart ((congrArg State.heads frame).trans rfl) frame.dirs

theorem video (frame : VideoFrame s t) : HeadKept h s t :=
  of_apart ((congrArg State.heads frame).trans rfl) frame.dirs

theorem tour (frame : TourFrame s t) : HeadKept h s t :=
  of_apart ((congrArg State.heads frame).trans rfl) frame.dirs

/-- A directory edited under its commit record, or with the record ended. -/
theorem setDir (j : Head) {d : Directory} (commit : (s.dir j).commit = none → d.commit = none) :
    HeadKept h s (s.setDir j d) := by
  refine of_same rfl fun none_pending => ?_
  rw [State.setDir_dir]
  split
  · next same => exact commit (same ▸ none_pending)
  · exact none_pending

/-- A head's other fields replaced. -/
theorem setHead (j : Head) {r : HeadRecord} (state : r.state = (s.head j).state)
    (inFlight : r.inFlight = (s.head j).inFlight) (sending : r.sending = (s.head j).sending)
    (claims : r.claims = (s.head j).claims) : HeadKept h s (s.setHead j r) := by
  by_cases same : h = j
  · subst same
    refine ⟨?_, ?_, ?_, ?_, id⟩
    all_goals rw [State.setHead_head_same]; assumption
  · refine of_same ?_ id
    rw [State.setHead_head, if_neg same]

/-- Another head's record replaced. -/
theorem setOther {j : Head} (other : h ≠ j) (r : HeadRecord) : HeadKept h s (s.setHead j r) :=
  of_same (by rw [State.setHead_head, if_neg other]) id

/-- R25, R29. -/
theorem endCommit (j : Head) (r : Result) (s : State) : HeadKept h s (endCommit j r s) := by
  obtain ⟨mark, eq⟩ := endCommit_eq j r s
  rw [eq]
  exact (setDir j fun _ => rfl).trans (of_apart rfl rfl)

/-- R26: an application reaches the view of the head and its LIVE bank alone. -/
theorem applyBank (j : Head) (new : Bank) (s : State) : HeadKept h s (applyBank j new s) := by
  have shown : HeadKept h s (s.setHead j
      { s.head j with view := (s.head j).view.applied (s.dir j).live new }) :=
    setHead j rfl rfl rfl rfl
  refine (shown.trans (setDir j (d := { s.dir j with live := new }) id)).trans ?_
  unfold Machine.applyBank
  rw [carryOver_records]
  exact of_apart rfl rfl

/-- R26, R27. -/
theorem applyCommit (j : Head) (detail : Nat) (s : State) : HeadKept h s (applyCommit j detail s) := by
  cases pending : (s.dir j).commit with
  | none => rw [applyCommit_none pending]; exact refl s
  | some c =>
      rw [applyCommit_some pending]
      have ended : HeadKept h s (s.setDir j (s.dir j).ended) := setDir j fun _ => rfl
      exact (ended.trans (applyBank j c.bank _)).trans (of_apart rfl rfl)

/-- R34. -/
theorem portReset (s : State) : HeadKept h s s.portReset :=
  of_same rfl fun none_pending => by
    cases h with
    | a => exact congrArg (Option.map _) none_pending
    | b => exact congrArg (Option.map _) none_pending

theorem consistent (kept : HeadKept h s t) (ok : (s.head h).Consistent (s.dir h).commit) :
    (t.head h).Consistent (t.dir h).commit := by
  obtain ⟨stopped, stopping, sends, unclaimed⟩ := ok
  obtain ⟨state, inFlight, sending, claims, commit⟩ := kept
  rw [← state] at stopped stopping
  rw [← inFlight] at stopped stopping sends unclaimed
  rw [← sending] at stopped sends
  rw [← claims] at unclaimed
  refine ⟨fun now => ?_, stopping, sends, unclaimed⟩
  obtain ⟨noFrame, none_pending, level⟩ := stopped now
  exact ⟨noFrame, commit none_pending, level⟩

end HeadKept

/-- After an application no commit is pending. -/
theorem applyCommit_ended (h : Head) (detail : Nat) (s : State) :
    ((applyCommit h detail s).dir h).commit = none := by
  cases pending : (s.dir h).commit with
  | none => rw [applyCommit_none pending]; exact pending
  | some c =>
      rw [applyCommit_some pending]
      have applied : HeadKept h (s.setDir h (s.dir h).ended) _ := .applyBank h c.bank _
      exact applied.commit (by rw [State.setDir_dir_same]; rfl)

/-! ### The heads -/

namespace State.HeadsOk
variable {s t : State}

theorem kept (ok : s.HeadsOk) (each : ∀ h, HeadKept h s t) : t.HeadsOk :=
  headsOk_iff.2 fun h => (each h).consistent (headsOk_iff.1 ok h)

theorem of_apart (ok : s.HeadsOk) (heads : t.heads = s.heads) (dirs : t.dirs = s.dirs) : t.HeadsOk :=
  ok.kept fun _ => .of_apart heads dirs

/-- An event of one head. -/
theorem moved (ok : s.HeadsOk) (h : Head) (others : ∀ j, j ≠ h → HeadKept j s t)
    (new : (t.head h).Consistent (t.dir h).commit) : t.HeadsOk :=
  headsOk_iff.2 fun j => by
    by_cases same : j = h
    · subst same; exact new
    · exact (others j same).consistent (headsOk_iff.1 ok j)

theorem setHead (ok : s.HeadsOk) (h : Head) {r : HeadRecord} (new : r.Consistent (s.dir h).commit) :
    (s.setHead h r).HeadsOk :=
  ok.moved h (fun _ other => .setOther other r) (by rw [State.setHead_head_same]; exact new)

theorem reset : State.reset.HeadsOk := headsOk_iff.2 fun h => by
  cases h <;> exact ⟨fun _ => ⟨rfl, rfl, rfl⟩, nofun, nofun, fun _ i => Table.get_fill _ i⟩

/-- R24: a commit stays pending on a head that draws. -/
theorem commitLater (ok : s.HeadsOk) {h : Head} (draws : (s.head h).state ≠ .stopped) (d : Directory) :
    (s.setDir h d).HeadsOk := by
  obtain ⟨-, stopping, sends, unclaimed⟩ := headsOk_iff.1 ok h
  refine ok.moved h (fun j other => ?_) ⟨fun stopped => absurd stopped draws, stopping, sends, unclaimed⟩
  exact .of_same rfl (by rw [State.setDir_dir, if_neg other]; exact id)

/-- R40. -/
theorem startHead (ok : s.HeadsOk) (h : Head) (std : Standard) :
    (s.setHead h { s.head h with state := .running, standard := std, frameNumber := 0 }).HeadsOk := by
  obtain ⟨-, -, sends, unclaimed⟩ := headsOk_iff.1 ok h
  exact ok.setHead h ⟨nofun, nofun, sends, unclaimed⟩

/-- R41: the head draws its last frame. -/
theorem stopInFrame (ok : s.HeadsOk) (h : Head) (frame : (s.head h).inFlight = true) :
    (s.setHead h { s.head h with state := .stopping }).HeadsOk := by
  obtain ⟨-, -, sends, unclaimed⟩ := headsOk_iff.1 ok h
  exact ok.setHead h ⟨nofun, fun _ => frame, sends, unclaimed⟩

/-- R48: a RUNNING head releases its claims. -/
theorem releaseClaims (ok : s.HeadsOk) (h : Head) (running : (s.head h).state = .running) :
    (releaseClaims h s).HeadsOk :=
  ok.setHead h ⟨fun stopped => absurd (running.symm.trans stopped) nofun,
    fun stopping => absurd (running.symm.trans stopping) nofun, nofun, fun _ i => Table.get_fill _ i⟩

/-- R27, R41: the head stops with the application of its pending commit, in whatever state it was. -/
theorem completeStop (ok : s.HeadsOk) (h : Head) : (completeStop h s).HeadsOk := by
  rw [completeStop_eq]
  refine ok.moved h (fun j other => ?_) ?_
  · exact (HeadKept.setOther other _).trans (.applyCommit h 0 _)
  · have kept : HeadKept h (s.setHead h (s.head h).stopCompleted) _ := .applyCommit h 0 _
    obtain ⟨state, inFlight, sending, claims, -⟩ := kept
    rw [State.setHead_head_same] at state inFlight sending claims
    refine ⟨fun _ => ⟨inFlight, applyCommit_ended h 0 _, sending⟩, ?_, ?_, fun _ i => ?_⟩
    · rw [state]; exact nofun
    · rw [inFlight]; exact nofun
    · rw [claims]; exact Table.get_fill _ i

/-- R43: the frame of a RUNNING head, after the application of its commit. -/
theorem beginFrame (ok : s.HeadsOk) (h : Head) (running : (s.head h).state = .running) :
    (beginFrame h s).HeadsOk := by
  have drawing (n : Word) (v : FrameView) (claims : Table 16 (Option PageId)) :
      (s.setHead h { s.head h with
        frameNumber := n, inFlight := true, sending := true, view := v, claims }).HeadsOk :=
    ok.setHead h ⟨fun stopped => absurd (running.symm.trans stopped) nofun, fun _ => rfl, fun _ => rfl,
      nofun⟩
  exact (drawing _ _ _).of_apart rfl rfl

end State.HeadsOk

/-! ### The commands -/

/-- R24 to R27, R40, R41: what a ring command's effect does to the heads. -/
theorem RingEffect.headsOk {s u : State} (e : RingEffect s u) (ok : s.HeadsOk) : u.HeadsOk := by
  have working (hd : Head) (b : Bank) : (s.setWorking hd b).HeadsOk := ok.kept fun _ => .setDir hd id
  have same {t : State} (heads : t.heads = s.heads) (dirs : t.dirs = s.dirs) : t.HeadsOk :=
    ok.of_apart heads dirs
  cases e with
  | place hd => exact working hd _
  | modify hd => exact working hd _
  | restack hd => exact working hd _
  | retire hd => exact working hd _
  | clear hd => exact working hd _
  | revert hd => exact working hd _
  | commitNow hd => exact ok.kept fun _ => (HeadKept.endCommit hd _ s).trans (.applyBank hd _ _)
  | commitLater hd tag quiet draws =>
      have ended : (endCommit hd .superseded s).HeadsOk := ok.kept fun _ => .endCommit hd _ s
      have kept : HeadKept hd s _ := .endCommit hd .superseded s
      exact ended.commitLater (kept.state ▸ draws) _
  | cancel hd => exact ok.kept fun _ => .endCommit hd _ s
  | startHead hd std => exact ok.startHead hd std
  | stopInFrame hd _ frame => exact ok.stopInFrame hd frame
  | stopNow hd => exact ok.completeStop hd
  | nothing => exact ok
  | colour => exact same rfl rfl
  | background hd => exact ok.kept fun _ => .setHead hd rfl rfl rfl rfl
  | configure i => exact ok.kept fun _ => .video (((VideoFrame.refl s).setPage i _).changeSource i _)
  | disable i => exact ok.kept fun _ => .video (((VideoFrame.refl s).setPage i _).changeSource i _)
  | lockParams => exact same rfl rfl
  | masks => exact same rfl rfl
  | defineTour => exact same rfl rfl
  | redefineTour => exact same rfl rfl
  | retireTour => exact same rfl rfl
  | control => exact ok.kept fun _ => .tour (controlRuntime_tourFrame ..)
  | line l r => exact ok.kept fun _ => .alarm (lineSet_alarmFrame l r s)
  | rule n => exact ok.kept fun _ => (HeadKept.alarm (removeEntryOf_alarmFrame n s)).trans (.of_apart rfl rfl)
  | trigger n r u position stands fires =>
      have frame := fire_alarmFrame .software n r s
      rw [fires] at frame
      exact ok.kept fun _ => .alarm frame
  | clearEntries => exact ok.kept fun _ => .alarm ((AlarmFrame.refl s).replaceList _ _ _)

/-- Each event of the part. -/
theorem ExecEffect.headsOk {s t : State} (e : ExecEffect s t) (ok : s.HeadsOk) : t.HeadsOk := by
  cases e with
  | command p q effect =>
      have before : (s.setPort p).HeadsOk := ok.of_apart rfl rfl
      exact (effect.headsOk before).of_apart rfl rfl
  | port => exact ok.of_apart rfl rfl
  | portReset => exact ok.kept fun _ => (HeadKept.portReset s).trans (.of_apart rfl rfl)
  | resultWrite => exact ok.of_apart rfl rfl
  | frameStart h running =>
      have applied (j : Head) : HeadKept j s (applyCommit h (nextFrame s h).toNat s) := .applyCommit h _ s
      have begun := (ok.kept applied).beginFrame h ((applied h).state.trans running)
      exact begun.of_apart rfl rfl
  | frameEnd h running => exact (ok.releaseClaims h running).of_apart rfl rfl
  | lastFrameEnd h => exact (ok.completeStop h).of_apart rfl rfl
  | timingCodes p i owns codes => exact ok.kept fun _ => .video (takeCodes_videoFrame i codes s)
  | lossExpiry i => exact ok.kept fun _ => .video (((VideoFrame.refl s).setPage i _).changeSource i _)
  | dwellExpiry => exact ok.kept fun _ => .tour (advanceRuntime_tourFrame ..)
  | pin => exact ok.of_apart rfl rfl
  | sample l =>
      exact ok.kept fun _ => .alarm (((AlarmFrame.refl s).setLine l _).trans (takeSample_alarmFrame l _))
  | debounceExpiry l => exact ok.kept fun _ => .alarm (lineCompares_alarmFrame l s)
  | holdExpiry => exact ok.kept fun _ => .alarm ((AlarmFrame.refl s).replaceList _ _ _)
  | deviceReset => exact State.HeadsOk.reset.of_apart rfl rfl

theorem tick_headsOk {s : State} (ok : s.HeadsOk) : (tick s).HeadsOk := by
  have counted : (countDown s).HeadsOk := ok.of_apart rfl rfl
  exact counted.kept fun _ => .alarm (tick_alarmFrame s)

/-- Settles O55: the queue and a millisecond leave the heads, and every command keeps them consistent. -/
theorem everyStepKeepsHeadsConsistent : Obligations.EveryStepKeepsHeadsConsistent := fun _ _ ok run =>
  step_keeps (fun _ _ ok => ok.of_apart rfl rfl) (fun _ ok => tick_headsOk ok)
    (fun _ _ effect ok => effect.headsOk ok) ok run

end Sys2Proof.Machine
end

section
/-! PROOF. Committing a layout (O16 to O18, O22, O23): LAYOUT_COMMIT, LAYOUT_CANCEL, and the frame events
that apply a pending commit. -/

namespace Sys2Proof.Machine

/-! ### The commands -/

/-- What a command leaves that raises notices and is answered at once: `pre` are the completions its block
sends before its own answer. -/
theorem arrive_portLeft {i : Instr} {h : Header} {code : Nat} {block : State → Reply} {s u : State}
    {r : Result} {d : Nat} {pre : List Completion} {mark : Bool} (ready : s.Ready)
    (reply : block s.taken = (u, .done r d))
    (port : u.port = { s.taken.port with
      queue := s.port.queue ++ pre
      cause := { s.port.cause with notice := u.port.cause.notice }, mark })
    (noticed : Noticed s u) :
    ∃ p, arrive i (answering h code block) s = u.setPort p
      ∧ PortLeft s (u.setPort p) (pre ++ answers h code r d) :=
  ⟨_, arrive_done ready reply port, rfl, noticed⟩

section
variable {h : Header} {hd : Head} {s : State}

theorem layoutCommit_stopped (clean : h.clean = true) (stopped : (s.head hd).state = .stopped)
    (none_pending : (s.dir hd).commit = none) :
    layoutCommit h (codeHead hd) s = (applyBank hd (s.dir hd).working s, .done .ok 0) := by
  simp only [layoutCommit, parseHead_code, clean, stopped, endCommit_none none_pending, Bool.not_true,
    Bool.false_eq_true, if_false, if_true]

/-- R24, R25: the new commit is pending, and an earlier one has ended. -/
theorem layoutCommit_drawing (clean : h.clean = true) (draws : (s.head hd).state ≠ .stopped) : ∃ mark,
    layoutCommit h (codeHead hd) s =
      ((s.setDir hd { s.dir hd with
          commit := some
            { bank := (s.dir hd).working, tag := h.tag, quiet := h.quiet, answered := true } }).setPort
        { s.port with queue := s.port.queue ++ endAnswers .superseded (s.dir hd).commit, mark },
        .deferred) := by
  obtain ⟨mark, ended⟩ := endCommit_eq hd .superseded s
  refine ⟨mark, ?_⟩
  simp only [layoutCommit, parseHead_code, clean, draws, ended, Bool.not_true, Bool.false_eq_true, if_false]
  simp only [State.setDir, State.setPort, State.dir, Directory.ended, PerHead.set_set, PerHead.get_set_same]

theorem layoutCancel_none (clean : h.clean = true) (none_pending : (s.dir hd).commit = none) :
    layoutCancel h (codeHead hd) s = refuse s .nothingPending := by
  simp only [layoutCancel, parseHead_code, clean, none_pending, Bool.not_true, Bool.false_eq_true,
    if_false]

/-- R29: the pending commit has ended. -/
theorem layoutCancel_some {c : CommitRecord} (clean : h.clean = true)
    (pending : (s.dir hd).commit = some c) : ∃ mark,
    layoutCancel h (codeHead hd) s =
      ((s.setDir hd { s.dir hd with commit := none }).setPort
        { s.port with queue := s.port.queue ++ endAnswers .cancelled (some c), mark },
        .done .ok (cancelDetail c)) := by
  obtain ⟨mark, ended⟩ := endCommit_eq hd .cancelled s
  refine ⟨mark, ?_⟩
  rw [pending] at ended
  simp only [layoutCancel, parseHead_code, clean, pending, ended, Bool.not_true, Bool.false_eq_true,
    if_false]
  rfl

/-- R29, step 1 of the checks. -/
theorem layoutCancel_badArgument {head : Nat} (wrong : h.clean = false ∨ 2 ≤ head) :
    layoutCancel h head s = refuse s .badArgument :=
  (layoutCancel_judged h head s).refuses fun ⟨clean, inRange⟩ => by
    have low : head < 2 := by simpa [operandsInRange] using inRange
    rcases wrong with unclean | high
    · simp [clean] at unclean
    · omega

end

/-- Settles O16: a STOPPED head has no commit pending, so only the copy of WORKING is applied. -/
theorem commitOnStoppedHead : Obligations.CommitOnStoppedHead := by
  intro h hd s ready clean heads tours stopped
  obtain ⟨-, none_pending, -⟩ := (State.headsOk_iff.1 heads hd).stopped stopped
  obtain ⟨records, carried, port, noticed, -⟩ :=
    applyBank_spec hd (s.dir hd).working s.taken (tours.idle hd)
  obtain ⟨p, run, left⟩ := arrive_portLeft (i := .layoutCommit h (codeHead hd)) (h := h) (code := 0x16)
    (pre := []) (mark := s.port.mark) ready (layoutCommit_stopped clean stopped none_pending)
    (port.trans (by rw [List.append_nil]; rfl)) noticed
  exact ⟨_, congrArg Host.Outcome.next run, congrArg (State.setPort · p) records, carried, left⟩

/-- Settles O17: the earlier record ends with its completion, and the new one takes its place. -/
theorem commitDeferredOnDrawingHead : Obligations.CommitDeferredOnDrawingHead := by
  intro h hd s ready clean draws
  obtain ⟨mark, reply⟩ := layoutCommit_drawing (h := h) (s := s.taken) clean draws
  have run := arrive_deferred (i := .layoutCommit h (codeHead hd)) (h := h) (code := 0x16)
    (c := s.port.cause) ready reply rfl
  refine (congrArg Host.Outcome.next run).trans ?_
  rw [taken_dir]
  cases (s.dir hd).commit <;> rfl

/-- R29: the completions of a cancel, by the record it withdraws. -/
theorem cancelAnswers_eq (h : Header) (c : CommitRecord) :
    endAnswers .cancelled (some c) ++ answers h 0x17 .ok (cancelDetail c) =
      if c.answered then
        { tag := c.tag, code := 0x16, result := .cancelled, detail := 0, detail2 := 0 }
          :: answers h 0x17 .ok 1
      else answers h 0x17 .ok 0 := by
  simp only [endAnswers, cancelDetail]
  cases c.answered <;> rfl

/-- Settles O18: the record withdrawn is answered before the cancel. -/
theorem cancelWithdrawsPendingCommit : Obligations.CancelWithdrawsPendingCommit := by
  intro h hd s ready clean
  refine ⟨fun none_pending => congrArg Host.Outcome.next (arrive_refused ready ?_),
    fun c pending => ?_,
    fun h' head wrong => congrArg Host.Outcome.next (arrive_refused ready (layoutCancel_badArgument wrong))⟩
  · exact layoutCancel_none clean none_pending
  · obtain ⟨mark, reply⟩ := layoutCancel_some (h := h) (s := s.taken) clean pending
    have run := arrive_done (i := .layoutCancel h (codeHead hd)) (h := h) (code := 0x17)
      (c := s.port.cause) ready reply rfl
    rw [cancelAnswers_eq] at run
    exact congrArg Host.Outcome.next run

/-! ### The frame events -/

theorem settle_notice (p : Port) : p.settle.cause.notice = p.cause.notice := by
  rw [Port.settle_eq]
  unfold Port.drain
  split <;> rfl

/-- Settles O22: the part after the application has no commit pending, so its frame start is the rest. -/
theorem frameStartAppliesPendingCommit : Obligations.FrameStartAppliesPendingCommit := by
  intro hd s c tours running between pending
  have applied := applyCommit_applied tours pending (nextFrame s hd).toNat
  have kept : HeadKept hd s _ := .applyCommit hd (nextFrame s hd).toNat s
  have ended := applyCommit_ended hd (nextFrame s hd).toNat s
  have start : exec (.frameStart hd) s
      = .next (beginFrame hd (applyCommit hd (nextFrame s hd).toNat s)).settled :=
    congrArg Host.Outcome.next (if_pos ⟨running, between⟩)
  generalize applyCommit hd (nextFrame s hd).toNat s = u at *
  have rest : exec (.frameStart hd) u = .next (beginFrame hd u).settled := by
    show Host.Outcome.next _ = _
    rw [if_pos ⟨kept.state.trans running, kept.inFlight.trans between⟩, applyCommit_none ended]
  exact ⟨u, _, start, applied.records, applied.carried, applied.noticed, applied.port, _, rest, rfl⟩

theorem frameEnd_running {hd : Head} {s : State} (frame : (s.head hd).inFlight = true)
    (running : (s.head hd).state = .running) :
    exec (.frameEnd hd) s = .next (releaseClaims hd s).settled := by
  show Host.Outcome.next _ = _
  rw [if_pos ⟨frame, by rw [running]; exact nofun⟩, if_neg (by rw [running]; exact nofun)]

theorem frameEnd_stopping {hd : Head} {s : State} (frame : (s.head hd).inFlight = true)
    (stopping : (s.head hd).state = .stopping) :
    exec (.frameEnd hd) s = .next (completeStop hd s).settled := by
  show Host.Outcome.next _ = _
  rw [if_pos ⟨frame, by rw [stopping]; exact nofun⟩, if_pos stopping]

theorem frameEnd_idle {hd : Head} {s : State}
    (idle : (s.head hd).state = .stopped ∨ (s.head hd).inFlight = false) :
    exec (.frameEnd hd) s = .next s :=
  congrArg Host.Outcome.next (if_neg fun ⟨frame, drawing⟩ =>
    idle.elim drawing fun between => by rw [frame] at between; exact absurd between nofun)

/-- Settles O23, by the head's state. -/
theorem frameEndReleasesClaims : Obligations.FrameEndReleasesClaims := by
  intro hd s tours
  refine ⟨frameEnd_idle, fun frame running => frameEnd_running frame running,
    fun frame stopping none_pending => ?_, fun c frame stopping pending => ?_⟩
  · have same : ((s.setHead hd (s.head hd).stopCompleted).dir hd).commit = none := none_pending
    rw [frameEnd_stopping frame stopping, completeStop_eq, applyCommit_none same]
    rfl
  · obtain ⟨records, carried, noticed, port⟩ := completeStop_applied tours pending
    refine ⟨_, frameEnd_stopping frame stopping, ?_⟩
    generalize completeStop hd s = u at *
    have notice : u.settled.port.cause.notice = u.port.cause.notice := settle_notice _
    refine ⟨?_, CarriedOver.of_setHead (r := (s.head hd).stopCompleted) rfl carried, ?_, ?_⟩
    · have settled := congrArg (State.setPort · u.settled.port) records
      rw [State.setHead_head_same, State.setHead_heads, PerHead.set_set] at settled
      exact settled
    · unfold Noticed
      rw [notice]
      exact noticed
    · rw [notice]
      exact congrArg Port.settle port

end Sys2Proof.Machine
end

section
/-! PROOF. PORT_RESET (R34, R157, O47): the port is cleared and settles as it stands, and the commit records
lose their reservations. -/

namespace Sys2Proof.Machine

/-- R157: a reset port has nothing to go on with. -/
theorem settle_afterReset (p : Port) : p.afterReset.settle = p.afterReset := by
  rw [Port.settle_eq]
  exact Port.drain_of_not fun ⟨_, mark, _⟩ => absurd mark nofun

theorem reservations_eq (s : State) : s.reservations =
    (if s.port.query.isSome then 1 else 0) + (s.holdsAnswer .a + s.holdsAnswer .b) := rfl

/-- R144: an UNANSWERED record holds no reservation. -/
theorem holdsAnswer_portReset (s : State) (h : Head) : s.portReset.holdsAnswer h = 0 := by
  have unanswered : (s.portReset.dir h).commit
      = (s.dir h).commit.map (fun c => { c with answered := false }) := by
    cases h <;> rfl
  unfold State.holdsAnswer
  rw [unanswered]
  cases (s.dir h).commit <;> rfl

/-- Settles O47: what the part then does by itself changes nothing of the reset port. -/
theorem portResetKeepsTheRecords : Obligations.PortResetKeepsTheRecords := by
  intro s
  have reset : s.portReset.settled = s.portReset := congrArg s.portReset.setPort (settle_afterReset s.port)
  refine ⟨_, congrArg Host.Outcome.next reset, rfl, fun hd => ?_, ?_⟩
  · cases hd <;> rfl
  · rw [reservations_eq, holdsAnswer_portReset, holdsAnswer_portReset]
    rfl

end Sys2Proof.Machine
end

section
/-! PROOF. The heads (O19 to O21): HEAD_START, HEAD_STOP, PALETTE_SET and HEAD_BACKGROUND, and the frame
start with no commit pending. -/

namespace Sys2Proof.Machine

/-! ### The commands -/

/-- What a command leaves that is answered OK at once and has not touched the port. -/
theorem arrive_ok {i : Instr} {h : Header} {code : Nat} {block : State → Reply} {s u : State} {d : Nat}
    (ready : s.Ready) (reply : block s.taken = (u, .done .ok d)) (port : u.port = s.taken.port) :
    arrive i (answering h code block) s
      = State.afterCommand (u.setPort s.port) (answers h code .ok d) :=
  arrive_done (pre := []) (c := s.port.cause) (m := s.port.mark) ready reply
    (by rw [port, taken_port, List.append_nil])

section
variable {h : Header} {hd : Head} {s : State}

theorem parseStandard_code (std : Standard) : parseStandard (codeStandard (some std)) = some std :=
  parseStandard_eq.2 rfl

theorem byteField_toNat (b : Byte) : byteField b.toNat = b := by
  rw [byteField, BitVec.ofNat_toNat, BitVec.setWidth_eq]

/-- R40. -/
theorem headStart_stopped {std : Standard} (clean : h.clean = true)
    (stopped : (s.head hd).state = .stopped) :
    headStart h (codeHead hd) (codeStandard (some std)) s =
      (s.setHead hd { s.head hd with state := .running, standard := std, frameNumber := 0 },
        .done .ok 0) := by
  simp only [headStart, parseHead_code, parseStandard_code, clean, stopped, Bool.not_true,
    Bool.false_eq_true, if_false, ne_eq, not_true_eq_false]

theorem headStart_busy {std : Standard} (clean : h.clean = true)
    (draws : (s.head hd).state ≠ .stopped) :
    headStart h (codeHead hd) (codeStandard (some std)) s = refuse s .headBusy := by
  simp only [headStart, parseHead_code, parseStandard_code, clean, draws, Bool.not_true,
    Bool.false_eq_true, if_false, ne_eq, not_false_eq_true, if_true]

/-- R56. -/
theorem paletteSet_eq {k : ColourId} {y cb cr : Byte} (clean : h.clean = true) :
    paletteSet h k.val y.toNat cb.toNat cr.toNat s = (s.setColour k { y, cb, cr }, .done .ok 0) := by
  simp only [paletteSet, parseFin_val, byteField_toNat, clean, Bool.not_true, Bool.false_eq_true, if_false]

/-- R57. -/
theorem headBackground_eq {k : ColourId} (clean : h.clean = true) :
    headBackground h (codeHead hd) k.val s
      = (s.setHead hd { s.head hd with background := k }, .done .ok 0) := by
  simp only [headBackground, parseHead_code, parseFin_val, clean, Bool.not_true, Bool.false_eq_true,
    if_false]

/-- R41, within a frame. -/
theorem headStop_inFrame (clean : h.clean = true) (running : (s.head hd).state = .running)
    (frame : (s.head hd).inFlight = true) :
    headStop h (codeHead hd) s = (s.setHead hd { s.head hd with state := .stopping },
      .done .ok (s.head hd).frameNumber.toNat) := by
  simp only [headStop, parseHead_code, clean, running, frame, Bool.not_true, Bool.false_eq_true, if_false,
    if_true]

/-- R41, between frames. -/
theorem headStop_between (clean : h.clean = true) (running : (s.head hd).state = .running)
    (between : (s.head hd).inFlight = false) :
    headStop h (codeHead hd) s = (completeStop hd s, .done .ok 0) := by
  simp only [headStop, parseHead_code, clean, running, between, Bool.not_true, Bool.false_eq_true, if_false]

/-- R41: a head whose stop has begun. -/
theorem headStop_stopping (clean : h.clean = true) (begun : (s.head hd).state ≠ .running) :
    headStop h (codeHead hd) s = (s, .done .ok 0) := by
  simp only [headStop, parseHead_code, clean, Bool.not_true, Bool.false_eq_true, if_false]
  cases state : (s.head hd).state with
  | running => exact absurd state begun
  | stopping => rfl
  | stopped => rfl

end

/-- The record of a head at the end of a stop between frames. -/
theorem HeadRecord.stopCompleted_eq {r : HeadRecord} (between : r.inFlight = false) :
    r.stopCompleted = { r with state := .stopped, sending := false, claims := .fill 16 none } := by
  simp only [stopCompleted, noClaims, between]

/-- R41: a stop completes with no commit to apply. -/
theorem completeStop_none {h : Head} {s : State} (none_pending : (s.dir h).commit = none) :
    completeStop h s = s.setHead h (s.head h).stopCompleted :=
  (completeStop_eq h s).trans
    (applyCommit_none (s := s.setHead h (s.head h).stopCompleted) none_pending 0)

theorem taken_head (s : State) (hd : Head) : s.taken.head hd = s.head hd := rfl

/-- Settles O19, command by command. -/
theorem headStartPaletteAndBackground : Obligations.HeadStartPaletteAndBackground := by
  intro h hd std colour y cb cr s ready clean
  exact ⟨fun stopped => congrArg Host.Outcome.next
      (arrive_ok ready (headStart_stopped (s := s.taken) clean stopped) rfl),
    fun draws => congrArg Host.Outcome.next
      (arrive_refused ready (headStart_busy (s := s.taken) clean draws)),
    congrArg Host.Outcome.next (arrive_ok ready (paletteSet_eq (s := s.taken) clean) rfl),
    congrArg Host.Outcome.next (arrive_ok ready (headBackground_eq (s := s.taken) clean) rfl)⟩

/-- Settles O20, by the head's state, its frame and its pending commit. -/
theorem headStopByState : Obligations.HeadStopByState := by
  intro h hd s ready clean tours
  refine ⟨fun running frame => congrArg Host.Outcome.next
      (arrive_ok ready (headStop_inFrame (s := s.taken) clean running frame) rfl),
    fun begun => congrArg Host.Outcome.next
      (arrive_ok (u := s.taken) ready (headStop_stopping clean begun) rfl),
    fun running between none_pending => congrArg Host.Outcome.next ?_,
    fun c running between pending => ?_⟩
  · have same : (s.taken.dir hd).commit = none := none_pending
    have reply := headStop_between (s := s.taken) clean running between
    rw [completeStop_none same, taken_head, HeadRecord.stopCompleted_eq between] at reply
    exact arrive_ok ready reply rfl
  · have same : s.taken.ToursOk := tours
    obtain ⟨records, carried, noticed, port⟩ := completeStop_applied same pending
    obtain ⟨p, run, left⟩ := arrive_portLeft (i := .headStop h (codeHead hd)) (h := h) (code := 0x21)
      ready (headStop_between clean running between) port noticed
    refine ⟨_, congrArg Host.Outcome.next run, ?_,
      CarriedOver.of_setHead (s := s) (r := (s.head hd).stopCompleted) rfl carried, left⟩
    have stopped := congrArg (State.setPort · p) records
    rw [State.setHead_head_same, State.setHead_heads, PerHead.set_set, taken_head,
      HeadRecord.stopCompleted_eq between] at stopped
    exact stopped

/-! ### The frame start -/

/-- R44: the shown source of a slot, the tour step read by way of `State.touring`. -/
theorem shownSource_eq (s : State) (h : Head) (slot : SlotId) :
    shownSource s h slot = (s.liveTile h slot).bind (fun tile =>
      match s.list h slot with
      | e :: _ => (s.rule e.rule).map (fun r => r.source)
      | [] => match s.touring h slot with
        | some (tour, r) => (tour.steps[r.step]?).map (fun st => st.source)
        | none => tile.source) := by
  unfold shownSource State.touring
  cases s.liveTile h slot with
  | none => rfl
  | some tile =>
      simp only [Option.bind_some, shownByTile]
      cases s.list h slot with
      | cons e rest => rfl
      | nil => cases tile.tour.bind s.tour <;> cases s.runtime h slot <;> rfl

/-- R45, R46: the source is the shown source of a slot. -/
theorem shows_iff {shown : Table 32 (Option SourceId)} {i : SourceId} :
    shows shown i = true ↔ ∃ slot, shown.get slot = some i := by
  rw [shows, List.contains_iff_mem, Table.mem_cells]

theorem raiseFrame_eq (p : Port) (h : Head) : p.raiseFrame h = { p with cause := { p.cause with
    frameA := p.cause.frameA || h = .a, frameB := p.cause.frameB || h = .b } } := by
  cases h <;> simp [Port.raiseFrame]

/-- R43: the part after a frame start without a commit. -/
theorem beginFrame_settled (h : Head) (s : State) :
    (beginFrame h s).settled = { s with
      port := (s.port.raiseFrame h).settle
      heads := s.heads.set h { s.head h with
        frameNumber := (s.head h).frameNumber + 1, inFlight := true, sending := true
        view := latchView s h, claims := takeClaims s h } } := rfl

/-- R39, R43: a head that does not draw, or draws a frame already. -/
theorem frameStart_idle {hd : Head} {s : State}
    (idle : (s.head hd).state ≠ .running ∨ (s.head hd).inFlight = true) :
    exec (.frameStart hd) s = .next s :=
  congrArg Host.Outcome.next (if_neg fun ⟨running, between⟩ =>
    idle.elim (fun other => other running)
      fun frame => by rw [frame] at between; exact absurd between nofun)

theorem frameStart_begins {hd : Head} {s : State} (running : (s.head hd).state = .running)
    (between : (s.head hd).inFlight = false) (none_pending : (s.dir hd).commit = none) :
    exec (.frameStart hd) s = .next (beginFrame hd s).settled := by
  show Host.Outcome.next _ = _
  rw [if_pos ⟨running, between⟩, applyCommit_none none_pending]

/-- Settles O21: with no commit to apply, the frame start latches from the part as it stands. -/
theorem frameStartLatchesAndClaims : Obligations.FrameStartLatchesAndClaims := by
  intro hd s
  refine ⟨frameStart_idle, fun running between none_pending => ⟨_,
    (frameStart_begins running between none_pending).trans (congrArg _ (beginFrame_settled hd s)), ?_⟩⟩
  have shown (slot : SlotId) : (shownSources s hd).get slot = shownSource s hd slot := Table.get_ofFn _ _
  have latched {α : Type} (f : SourceId → Option α) (i : SourceId) :
      (Table.ofFn fun i => if shows (shownSources s hd) i then f i else none).get i =
        if ∃ slot, (shownSources s hd).get slot = some i then f i else none := by
    rw [Table.get_ofFn]
    exact if_congr shows_iff rfl rfl
  simp only [State.head, PerHead.get_set_same]
  exact ⟨trivial, trivial, fun slot => (shown slot).trans (shownSource_eq s hd slot), latched _, latched _,
    rfl, rfl, latched _, by rw [raiseFrame_eq]⟩

end Sys2Proof.Machine
end

section
/-! PROOF. Pictures (O49, O50): a page sample and its mask, the visible tile, the content of a tile and the
bytes of a pair of samples. -/

namespace Sys2Proof.Machine

/-! ### Page samples and masks (R52, R95 to R98) -/

/-- R52: a stored line alternates chroma and luma, and a pair of samples shares its chroma. -/
theorem pageSample_eq (s : State) (i : SourceId) (p : PageId) (sx sy : Nat) :
    pageSample s i p sx sy = {
      y := Memory.read s.store (lineAddress i p sy + 2 * sx + 1)
      cb := Memory.read s.store (lineAddress i p sy + 2 * (sx - sx % 2))
      cr := Memory.read s.store (lineAddress i p sy + 2 * (sx - sx % 2) + 2) } := by
  have pair : 4 * (sx / 2) = 2 * (sx - sx % 2) := by omega
  have luma : lineAddress i p sy + 4 * (sx / 2) + 1 + 2 * (sx % 2) = lineAddress i p sy + 2 * sx + 1 := by
    omega
  unfold pageSample
  dsimp only
  rw [luma, pair]

section
variable {slots : MaskSlots} {sx sy : Nat}

/-- R95: outside every region no mask governs. -/
theorem governing_eq_none (outside : ∀ k m, slots.get k = some m → m.contains sx sy = false) :
    governing (some slots) sx sy = none := by
  refine List.find?_eq_none.2 fun m mem => ?_
  obtain ⟨_, listed, rfl⟩ := List.mem_filterMap.1 mem
  obtain ⟨k, stands⟩ := Table.mem_cells.1 listed
  simp [outside k m stands]

/-- R95: the mask of the lowest slot whose region contains the position governs. -/
theorem governing_eq_some {k : MaskId} {m : Mask} (stands : slots.get k = some m)
    (inside : m.contains sx sy = true)
    (lowest : ∀ k' m', k' < k → slots.get k' = some m' → m'.contains sx sy = false) :
    governing (some slots) sx sy = some m := by
  have first : slots.cells.find? (fun o => o.any (·.contains sx sy)) = some (some m) := by
    rw [Table.cells_eq_map_get, ← List.ofFn_eq_map, List.find?_ofFn_eq_some]
    refine ⟨inside, k, stands, fun k' lower => ?_⟩
    cases other : slots.get k' with
    | none => exact nofun
    | some m' => simp [lowest k' m' lower other]
  unfold governing
  dsimp only
  rw [List.find?_filterMap]
  exact congrArg (Option.bind · id) first

variable {s : State} {hd : Head} {i : SourceId} {p : PageId} {loss : Colour}

/-- R52, R98: without a mask the sample stands as read, the loss colour below the stored height. -/
theorem readSample_unmasked (free : governing ((s.head hd).view.masks.get i) sx sy = none) :
    readSample s hd i p loss sx sy =
      if sy < (s.page i).heights.get p then pageSample s i p sx sy else loss := by
  unfold readSample
  rw [free]

/-- R96 to R98: the sample is its governing mask's. -/
theorem readSample_masked {m : Mask} (governs : governing ((s.head hd).view.masks.get i) sx sy = some m) :
    readSample s hd i p loss sx sy =
      if sy < (s.page i).heights.get p then maskedSample s hd i p sx sy m.kind
      else maskedLoss s hd loss m.kind := by
  unfold readSample
  rw [governs]

/-- R96, R98: SOLID hides page and loss colour alike. -/
theorem readSample_solid {m : Mask} {colour : ColourId} (kind : m.kind = .solid colour)
    (governs : governing ((s.head hd).view.masks.get i) sx sy = some m) :
    readSample s hd i p loss sx sy = (s.head hd).view.palette.get colour := by
  rw [readSample_masked governs, kind]
  exact ite_self _

/-- R97, R98. -/
theorem readSample_mosaic {m : Mask} {block : Nat} (kind : m.kind = .mosaic block)
    (governs : governing ((s.head hd).view.masks.get i) sx sy = some m) :
    readSample s hd i p loss sx sy =
      if sy < (s.page i).heights.get p then pageSample s i p (sx - sx % block) (sy - sy % block)
      else loss := by
  rw [readSample_masked governs, kind]
  rfl

/-- R96, R98: DARKEN acts on the sample that would stand without it. -/
theorem readSample_darken {m : Mask} {shift : Nat} (kind : m.kind = .darken shift)
    (governs : governing ((s.head hd).view.masks.get i) sx sy = some m) :
    readSample s hd i p loss sx sy =
      darkened (if sy < (s.page i).heights.get p then pageSample s i p sx sy else loss) shift := by
  rw [readSample_masked governs, kind]
  exact (apply_ite (darkened · shift) _ _ _).symm

end

/-- R96: a darkened luma is still a byte. -/
theorem darkened_luma (c : Colour) (shift : Nat) : (darkened c shift).y.toNat =
    if 16 < c.y.toNat then 16 + (c.y.toNat - 16) / 2 ^ shift else 16 := by
  have byte := c.y.isLt
  have smaller : (c.y.toNat - 16) / 2 ^ shift ≤ c.y.toNat - 16 := Nat.div_le_self _ _
  unfold darkened
  dsimp only
  split
  · rw [byteField, BitVec.toNat_ofNat, Nat.mod_eq_of_lt (by omega)]
  · rfl

/-- Settles O49: by the mask that governs the position, or that none does. -/
theorem latchedMaskGovernsTheSample : Obligations.LatchedMaskGovernsTheSample := by
  intro s hd i pg loss sx sy
  refine ⟨pageSample_eq s i pg sx sy, fun slots latched => ⟨fun outside => ?_,
    fun k m stands inside lowest => ?_⟩⟩
  · exact readSample_unmasked (by rw [latched, governing_eq_none outside])
  · have governs : governing ((s.head hd).view.masks.get i) sx sy = some m := by
      rw [latched, governing_eq_some stands inside lowest]
    refine ⟨fun colour kind => readSample_solid kind governs,
      fun block kind => readSample_mosaic kind governs, fun shift kind => ?_⟩
    rw [readSample_darken kind governs]
    exact ⟨rfl, rfl, darkened_luma _ _⟩

/-! ### The visible tile (R49, R50) -/

theorem covers_iff {t : Tile} {height x y : Nat} : t.covers height x y = true ↔ Covers t height x y := by
  simp only [Tile.covers, Covers, Bool.and_eq_true, decide_eq_true_eq, and_assoc]

theorem rasterHeight_eq (s : State) (hd : Head) :
    s.rasterHeight hd = if (s.head hd).standard = .s525 then 480 else 576 := by
  unfold State.rasterHeight
  cases (s.head hd).standard <;> rfl

/-- R49: the tile a slot of LIVE puts over the sample, if any. -/
def coveringTile (s : State) (hd : Head) (x y : Nat) (slot : SlotId) : Option (SlotId × Tile) :=
  match s.liveTile hd slot with
  | some t => if t.covers (s.rasterHeight hd) x y then some (slot, t) else none
  | none => none

theorem visibleTile_eq (s : State) (hd : Head) (x y : Nat) :
    visibleTile s hd x y = (s.dir hd).live.order.findSome? (coveringTile s hd x y) := rfl

section
variable {s : State} {hd : Head} {x y : Nat}

theorem coveringTile_eq_some {slot : SlotId} {t : Tile} (stands : s.liveTile hd slot = some t)
    (covers : Covers t (s.rasterHeight hd) x y) : coveringTile s hd x y slot = some (slot, t) := by
  unfold coveringTile
  rw [stands]
  exact if_pos (covers_iff.2 covers)

theorem coveringTile_eq_none {slot : SlotId}
    (beside : ∀ t, s.liveTile hd slot = some t → ¬ Covers t (s.rasterHeight hd) x y) :
    coveringTile s hd x y slot = none := by
  unfold coveringTile
  split
  · next t stands => exact if_neg fun covers => beside t stands (covers_iff.1 covers)
  · rfl

/-- R49: no tile covers the sample. -/
theorem visibleTile_eq_none (beside : ∀ slot t, slot ∈ (s.dir hd).live.order →
    s.liveTile hd slot = some t → ¬ Covers t (s.rasterHeight hd) x y) : visibleTile s hd x y = none := by
  rw [visibleTile_eq, List.findSome?_eq_none_iff]
  exact fun slot mem => coveringTile_eq_none fun t => beside slot t mem

/-- R49: the first tile in rank order that covers the sample. -/
theorem visibleTile_eq_some {front back : List SlotId} {slot : SlotId} {t : Tile}
    (order : (s.dir hd).live.order = front ++ slot :: back) (stands : s.liveTile hd slot = some t)
    (covers : Covers t (s.rasterHeight hd) x y)
    (beside : ∀ slot' t', slot' ∈ front → s.liveTile hd slot' = some t' →
      ¬ Covers t' (s.rasterHeight hd) x y) : visibleTile s hd x y = some (slot, t) := by
  have above : front.findSome? (coveringTile s hd x y) = none :=
    List.findSome?_eq_none_iff.2 fun slot' mem => coveringTile_eq_none fun t' => beside slot' t' mem
  rw [visibleTile_eq, order, List.findSome?_append, above, Option.none_or, List.findSome?_cons,
    coveringTile_eq_some stands covers]

theorem sample_background (uncovered : visibleTile s hd x y = none) :
    sample s hd x y = (s.head hd).view.palette.get (s.head hd).view.background := by
  unfold sample
  rw [uncovered]
  rfl

theorem sample_tile {slot : SlotId} {t : Tile} (visible : visibleTile s hd x y = some (slot, t)) :
    sample s hd x y = tileSample s hd slot t x y := by
  unfold sample
  rw [visible]

end

/-- R50. -/
theorem inBorder_iff {t : Tile} {u v : Nat} : t.inBorder u v = true ↔
    t.style.borderWidth ≠ 0 ∧ (u < t.style.borderWidth ∨ t.geometry.w ≤ u + t.style.borderWidth
      ∨ v < t.style.borderWidth ∨ t.geometry.h ≤ v + t.style.borderWidth) := by
  simp only [Tile.inBorder, Bool.and_eq_true, Bool.or_eq_true, decide_eq_true_eq, or_assoc,
    Nat.sub_le_iff_le_add]

/-! ### The content of a tile (R51, R54) -/

section
variable {i : SourceId} {st : SourceState} {claim : Option PageId} {policy : LossPolicy}

theorem content_written (written : Written st) :
    content (some i) (some st) claim policy = content (some i) (some .locked) claim policy := by
  rcases written with rfl | rfl <;> rfl

theorem content_unwritten (unwritten : ¬ Written st) :
    content (some i) (some st) claim policy = content (some i) (some .lost) claim policy := by
  cases st with
  | locked => exact absurd (.inl rfl) unwritten
  | unstable => exact absurd (.inr rfl) unwritten
  | off => rfl
  | searching => rfl
  | lost => rfl

/-- R51: a usable source, and any source under FREEZE, is read from its claimed page. -/
theorem content_read (read : Written st ∨ policy = .freeze) :
    content (some i) (some st) claim policy = (claim.map (Content.page i)).getD .lossColour := by
  by_cases written : Written st
  · rw [content_written written]
    cases claim <;> rfl
  · rw [content_unwritten written, read.resolve_left written]
    cases claim <;> rfl

end

section
variable {s : State} {hd : Head} {slot : SlotId} {t : Tile}

theorem slotContent_none (dark : (s.head hd).view.shown.get slot = none) :
    slotContent s hd slot t = .lossColour := by
  unfold slotContent
  rw [dark]
  rfl

theorem slotContent_some {i : SourceId} {st : SourceState}
    (shown : (s.head hd).view.shown.get slot = some i) (state : (s.head hd).view.states.get i = some st) :
    slotContent s hd slot t
      = content (some i) (some st) ((s.head hd).claims.get i) t.style.lossPolicy := by
  unfold slotContent
  dsimp only
  rw [shown, Option.bind_some, Option.bind_some, state]

variable {x y : Nat}

theorem tileSample_border (edge : t.inBorder (x - t.geometry.x) (y - t.geometry.y) = true) :
    tileSample s hd slot t x y = (s.head hd).view.palette.get t.style.borderColour :=
  if_pos edge

variable (inside : t.inBorder (x - t.geometry.x) (y - t.geometry.y) = false)
include inside

theorem tileSample_loss (dark : slotContent s hd slot t = .lossColour) :
    tileSample s hd slot t x y = (s.head hd).view.palette.get t.style.lossColour := by
  simp only [tileSample, inside, dark, Bool.false_eq_true, if_false]
  rfl

theorem tileSample_pattern (lost : slotContent s hd slot t = .pattern) :
    tileSample s hd slot t x y = patternColour t (x - t.geometry.x) := by
  simp only [tileSample, inside, lost, Bool.false_eq_true, if_false]

theorem tileSample_page {i : SourceId} {p : PageId} (read : slotContent s hd slot t = .page i p) :
    tileSample s hd slot t x y =
      readSample s hd i p ((s.head hd).view.palette.get t.style.lossColour)
        (t.view.cx + (x - t.geometry.x) * t.view.scale) (t.view.cy + (y - t.geometry.y) * t.view.scale) := by
  simp only [tileSample, inside, read, Bool.false_eq_true, if_false]
  rfl

end

/-- R54: the eight bars are equally wide. -/
theorem patternColour_eq {t : Tile} {n k u : Nat} {bar : Colour} (width : t.geometry.w = 8 * n)
    (low : k * n ≤ u) (high : u < (k + 1) * n) (listed : Config.patternBars.cells[k]? = some bar) :
    patternColour t u = bar := by
  have place : barOf t u = k := by
    rw [barOf, width, Nat.mul_div_cancel_left n (by decide), Nat.div_eq_of_lt_le low high]
  rw [patternColour, place, Table.find?, listed]
  rfl

/-! ### The bytes of a line's samples (R53, R58, R59) -/

theorem length_flatMap_range {α : Type} {f : Nat → List α} {m : Nat} (length : ∀ j, (f j).length = m)
    (n : Nat) : ((List.range n).flatMap f).length = m * n := by
  simp [List.length_flatMap, length, Nat.mul_comm]

/-- One block of a row of blocks of equal length. -/
theorem take_drop_flatMap_range {α : Type} {f : Nat → List α} {m n k : Nat}
    (length : ∀ j, (f j).length = m) (inside : k < n) :
    (((List.range n).flatMap f).drop (m * k)).take m = f k := by
  obtain ⟨rest, rfl⟩ : ∃ rest, n = k + (rest + 1) := ⟨n - k - 1, by omega⟩
  have row : List.range (k + (rest + 1)) = List.range k ++ k :: List.range' (k + 1) rest := by
    rw [List.range_eq_range', List.range_eq_range', ← List.range'_append_1, Nat.zero_add,
      List.range'_succ]
  rw [row, List.flatMap_append, List.drop_left' (length_flatMap_range length k), List.flatMap_cons,
    List.take_left' (length k)]

theorem activeBytes_pair (s : State) (hd : Head) (y : Nat) {k : Nat} (inside : k < 360) :
    ((activeBytes s hd y).drop (4 * k)).take 4 = pairBytes s hd (2 * k) y :=
  take_drop_flatMap_range (fun _ => rfl) inside

/-- Settles O50: by the visible tile, its border and the content of its slot. -/
theorem compositionOfASample : Obligations.CompositionOfASample := by
  intro s hd x y height latched
  have raster : s.rasterHeight hd = height := rasterHeight_eq s hd
  refine ⟨fun beside => sample_background (visibleTile_eq_none (by rwa [raster])), ?_,
    fun k inside => activeBytes_pair s hd y inside⟩
  intro front slot back t order stands covers beside u v b border loss
  rw [← raster] at covers beside
  rw [sample_tile (visibleTile_eq_some order stands covers beside)]
  have interior (inside : ¬ border) : t.inBorder u v = false :=
    Bool.eq_false_iff.2 fun edge => inside (inBorder_iff.1 edge)
  refine ⟨fun edge => tileSample_border (inBorder_iff.2 edge),
    fun inside dark => tileSample_loss (interior inside) (slotContent_none dark),
    fun inside i st shown state => ?_⟩
  have content_eq := slotContent_some (t := t) shown state
  refine ⟨fun read => ?_, fun unwritten black => ?_,
    fun unwritten pattern n width k bar low high listed => ?_⟩
  · rw [content_read read] at content_eq
    refine ⟨fun unclaimed => tileSample_loss (interior inside) ?_,
      fun pg claimed => tileSample_page (interior inside) ?_⟩
    · rw [content_eq, unclaimed]
      rfl
    · rw [content_eq, claimed]
      rfl
  · refine tileSample_loss (interior inside) ?_
    rw [content_eq, content_unwritten unwritten, black]
    rfl
  · rw [tileSample_pattern (interior inside)]
    · exact patternColour_eq width low high listed
    · rw [content_eq, content_unwritten unwritten, pattern]
      rfl

end Sys2Proof.Machine
end

section
/-! PROOF. The streams of the ports (O51): the timing codes that an input port takes one after another, and
the bytes that an output port sends. -/

namespace Sys2Proof.Machine

/-! ### The last byte of a stretch (R62) -/

/-- R62: the last byte of a stream is the flag byte of its last code, or of none. -/
theorem readCodes_lastByte (stream : List Byte) (m : CodeMatch) (before : List Byte) :
    ∃ (codes : List (List Byte × Byte)) (last : Option (List Byte)),
      ∀ f, readCodes m before (stream ++ [f]) = codes ++ (last.map (·, f)).toList := by
  induction stream generalizing m before with
  | nil =>
      by_cases whole : m = .three
      · exact ⟨[], some (before.drop 3).reverse, fun f => if_pos whole⟩
      · exact ⟨[], none, fun f => if_neg whole⟩
  | cons b stream ih =>
      by_cases whole : m = .three
      · obtain ⟨codes, last, eq⟩ := ih .none []
        exact ⟨((before.drop 3).reverse, b) :: codes, last,
          fun f => (if_pos whole).trans (congrArg _ (eq f))⟩
      · obtain ⟨codes, last, eq⟩ := ih (m.next b) (b :: before)
        exact ⟨codes, last, fun f => (if_neg whole).trans (eq f)⟩

/-- R170: an input port acts on the field, vertical-blank and end-of-active flags alone. -/
theorem takeCode_flags {f g : Byte} (field : fieldFlag f = fieldFlag g) (blank : blankFlag f = blankFlag g)
    (final : endFlag f = endFlag g) (i : SourceId) (bytes : List Byte) (s : State) :
    takeCode i f bytes s = takeCode i g bytes s := by
  simp only [takeCode, field, blank, final]

/-- The codes of a stretch, taken in turn. -/
def takeCodes (i : SourceId) (codes : List (List Byte × Byte)) (s : State) : State :=
  codes.foldl (fun t c => takeCode i c.2 c.1 t) s

theorem timingCode_owned {p : PortId} {i : SourceId} {s : State} (owns : s.owner p = some i) (f : Byte)
    (bytes : List Byte) : exec (.timingCode p f bytes) s = .next (takeCodes i (codesIn bytes f) s) := by
  show Host.Outcome.next _ = _
  rw [owns]
  rfl

theorem timingCode_unowned {p : PortId} {s : State} (free : s.owner p = none) (f : Byte)
    (bytes : List Byte) : exec (.timingCode p f bytes) s = .next s := by
  show Host.Outcome.next _ = _
  rw [free]

theorem takeCodes_flags {f g : Byte} (field : fieldFlag f = fieldFlag g) (blank : blankFlag f = blankFlag g)
    (final : endFlag f = endFlag g) (i : SourceId) (bytes : List Byte) (s : State) :
    takeCodes i (codesIn bytes f) s = takeCodes i (codesIn bytes g) s := by
  obtain ⟨codes, last, eq⟩ := readCodes_lastByte (bytes ++ [255, 0, 0]) .none []
  have split (b : Byte) : codesIn bytes b = codes ++ (last.map (·, b)).toList := by
    rw [← eq b, List.append_assoc]
    rfl
  rw [split f, split g]
  unfold takeCodes
  rw [List.foldl_append, List.foldl_append]
  cases last with
  | none => rfl
  | some bytes => exact takeCode_flags field blank final i bytes _

/-! ### The owner of a port (R61) -/

/-- R61: the new record owns its port exactly where the old one did. -/
structure SourceRecord.OwnsAlike (r r' : SourceRecord) : Prop where
  port : r'.port = r.port
  off : r'.state = .off ↔ r.state = .off

theorem SourceRecord.OwnsAlike.refl (r : SourceRecord) : r.OwnsAlike r := ⟨rfl, .rfl⟩

theorem SourceRecord.OwnsAlike.trans {r r' r'' : SourceRecord} (a : r.OwnsAlike r') (b : r'.OwnsAlike r'') :
    r.OwnsAlike r'' := ⟨b.port.trans a.port, b.off.trans a.off⟩

theorem SourceRecord.OwnsAlike.of_on {r r' : SourceRecord} (on : r.state ≠ .off) (on' : r'.state ≠ .off)
    (port : r'.port = r.port) : r.OwnsAlike r' := ⟨port, iff_of_false on' on⟩

section
variable {r : SourceRecord} (p : LockParams) (on : r.state ≠ .off)
include on

theorem searchingGood_ownsAlike (std : Option Standard) : r.OwnsAlike (searchingGood p r std) := by
  unfold searchingGood
  generalize (if r.candidate = none ∨ r.candidate = std then r.goodRun + 1 else 1) = run
  dsimp only
  split
  · exact .of_on on nofun rfl
  · exact .of_on on on rfl

theorem unstableGood_ownsAlike : r.OwnsAlike (unstableGood p r) := by
  unfold unstableGood
  split
  · exact .of_on on nofun rfl
  · exact .of_on on on rfl

theorem unstableBad_ownsAlike : r.OwnsAlike (unstableBad p r) := by
  unfold unstableBad
  split
  · exact .of_on on nofun rfl
  · exact .of_on on on rfl

end

/-- R69 to R72: no verdict turns a source off or on. -/
theorem applyVerdict_ownsAlike (p : LockParams) (r : SourceRecord) (good : Bool) (std : Option Standard) :
    r.OwnsAlike (applyVerdict p r good std) := by
  have on {st : SourceState} (state : r.state = st) (other : st ≠ .off) : r.state ≠ .off :=
    state ▸ other
  unfold applyVerdict
  split
  · next searching => exact searchingGood_ownsAlike p (on searching nofun) std
  · exact ⟨rfl, .rfl⟩
  · exact .refl r
  · next locked => exact .of_on (on locked nofun) nofun rfl
  · next unstable => exact unstableGood_ownsAlike p (on unstable nofun)
  · next unstable => exact unstableBad_ownsAlike p (on unstable nofun)
  · next lost => exact .of_on (on lost nofun) nofun rfl
  · exact .refl r
  · exact .refl r

/-- From `s` to `t` every port keeps its owner. -/
def OwnersKept (s t : State) : Prop := ∀ j, (s.source j).OwnsAlike (t.source j)

namespace OwnersKept
variable {s t u : State}

theorem refl (s : State) : OwnersKept s s := fun _ => .refl _

theorem trans (a : OwnersKept s t) (b : OwnersKept t u) : OwnersKept s u := fun j => (a j).trans (b j)

theorem of_sources (sources : t.sources = s.sources) : OwnersKept s t := fun j => by
  unfold State.source
  rw [sources]
  exact .refl _

theorem setSource (i : SourceId) {r : SourceRecord} (alike : (s.source i).OwnsAlike r) :
    OwnersKept s (s.setSource i r) := fun j => by
  rw [State.setSource_source]
  split
  · next same => exact same ▸ alike
  · exact .refl _

theorem changeSource (i : SourceId) {r : SourceRecord} (alike : (s.source i).OwnsAlike r) :
    OwnersKept s (s.changeSource i r) := by
  unfold State.changeSource
  split
  · exact setSource i alike
  · exact (setSource i alike).trans (of_sources rfl)

theorem owner_eq (kept : OwnersKept s t) (p : PortId) : t.owner p = s.owner p := by
  unfold State.owner
  congr 1
  funext j
  simp only [(kept j).port, ne_eq, (kept j).off]

end OwnersKept

theorem fillField_sources (i : SourceId) (top : Bool) (k : Nat) (s : State) :
    (fillField i top k s).sources = s.sources := by
  unfold fillField
  split <;> rfl

theorem storeActiveLine_sources (i : SourceId) (top : Bool) (k : Nat) (bytes : List Byte) (s : State) :
    (storeActiveLine i top k bytes s).sources = s.sources := by
  unfold storeActiveLine
  split
  · split <;> rfl
  · rfl

theorem topFieldStart_sources (i : SourceId) (s : State) : (topFieldStart i s).sources = s.sources := by
  unfold topFieldStart
  dsimp only
  split <;> rfl

namespace OwnersKept

/-- R66: the verdict of a field ends in the source's record. -/
theorem fieldEnd (i : SourceId) (s : State) : OwnersKept s (fieldEnd i s) := by
  unfold Machine.fieldEnd
  dsimp only
  split
  · exact .refl s
  · next f _ =>
      have filled := fillField_sources i (isTop (s.source i) f.bit) f.lines s
      have verdict := applyVerdict_ownsAlike s.params (s.source i) (goodField (s.source i) f)
        (measured f.lines)
      generalize fillField i (isTop (s.source i) f.bit) f.lines s = t at filled ⊢
      have stored (pages : PageTable) : OwnersKept s (t.setPage i pages) := .of_sources filled
      refine .trans (stored _) (.changeSource i ?_)
      rw [State.setPage_source, State.source, filled]
      exact ⟨verdict.port, verdict.off⟩

theorem closeLine (i : SourceId) (final : Bool) (bytes : List Byte) (s : State) :
    OwnersKept s (closeLine i final bytes s) := by
  unfold Machine.closeLine
  dsimp only
  split
  · split
    · next f _ =>
        have stored := storeActiveLine_sources i (isTop (s.source i) f.bit) f.lines bytes s
        generalize storeActiveLine i (isTop (s.source i) f.bit) f.lines bytes s = t at stored ⊢
        have counted {r : SourceRecord} (alike : (s.source i).OwnsAlike r) :
            OwnersKept s (t.setSource i r) := by
          refine .trans (.of_sources stored) (.setSource i ?_)
          rwa [State.source, stored]
        split
        · refine .trans (counted ?_) (fieldEnd i _)
          exact ⟨rfl, .rfl⟩
        · exact counted ⟨rfl, .rfl⟩
    · exact .setSource i ⟨rfl, .rfl⟩
  · exact .refl s

theorem openLine (i : SourceId) (bit : Bool) (s : State) : OwnersKept s (openLine i bit s) := by
  unfold Machine.openLine
  dsimp only
  split
  · split
    · refine .trans (.setSource i ?_) (.of_sources (topFieldStart_sources i _))
      exact ⟨rfl, .rfl⟩
    · exact .setSource i ⟨rfl, .rfl⟩
  · exact .setSource i ⟨rfl, .rfl⟩

/-- R61, R62: a timing code moves no port from one source to another. -/
theorem takeCode (i : SourceId) (flags : Byte) (bytes : List Byte) (s : State) :
    OwnersKept s (takeCode i flags bytes s) := by
  have timed : OwnersKept s (s.setSource i { s.source i with lossTimer := some s.params.lossTimeout }) :=
    .setSource i ⟨rfl, .rfl⟩
  have closed := timed.trans (closeLine i (endFlag flags) bytes _)
  unfold Machine.takeCode
  dsimp only
  split
  · exact (closed.trans (fieldEnd i _)).trans (.setSource i ⟨rfl, .rfl⟩)
  split
  · exact closed
  · exact closed.trans (openLine i _ _)

end OwnersKept

/-! ### A stretch with several codes (R62, log 30) -/

section
variable {p : PortId} {s : State} {before : List Byte}

theorem timingCode_sameFlags {f g : Byte} (field : fieldFlag f = fieldFlag g)
    (blank : blankFlag f = blankFlag g) (final : endFlag f = endFlag g) (bytes : List Byte) :
    exec (.timingCode p f bytes) s = exec (.timingCode p g bytes) s := by
  cases owns : s.owner p with
  | none => rw [timingCode_unowned owns, timingCode_unowned owns]
  | some i =>
      rw [timingCode_owned owns, timingCode_owned owns, takeCodes_flags field blank final]

/-- R62: what follows a code is taken from the state the code leaves. -/
theorem timingCode_split {f g : Byte} {after : List Byte} {t : State} (free : codeFree before = true)
    (run : exec (.timingCode p g before) s = .next t) :
    exec (.timingCode p f (before ++ [255, 0, 0, g] ++ after)) s = exec (.timingCode p f after) t := by
  cases owns : s.owner p with
  | none =>
      cases (timingCode_unowned owns g before).symm.trans run
      rw [timingCode_unowned owns, timingCode_unowned owns]
  | some i =>
      have one : exec (.timingCode p g before) s = .next (takeCode i g before s) := by
        rw [timingCode_owned owns, codesIn_of_codeFree free]
        rfl
      cases one.symm.trans run
      have owns' := ((OwnersKept.takeCode i g before s).owner_eq p).trans owns
      rw [timingCode_owned owns, timingCode_owned owns', codesIn_split free]
      rfl

/-- R62: after 255, 0, 0 the 255 of the next code is a flag byte, and the rest of it is no code. -/
theorem codesIn_overlapped (free : codeFree before = true) (f : Byte) :
    codesIn (before ++ [255, 0, 0]) f = [(before, 255)] := by
  have first := readCodes_next before 255 [0, 0, f] .none [] nofun free
  unfold codesIn
  rw [List.append_assoc]
  exact first

theorem timingCode_overlapped (free : codeFree before = true) (f : Byte) :
    exec (.timingCode p f (before ++ [255, 0, 0])) s = exec (.timingCode p 255 before) s := by
  cases owns : s.owner p with
  | none => rw [timingCode_unowned owns, timingCode_unowned owns]
  | some i =>
      rw [timingCode_owned owns, timingCode_owned owns, codesIn_overlapped free, codesIn_of_codeFree free]

end

/-! ### The bytes of an output line (R58, R59, R170) -/

theorem flagByte_bits : ∀ field blank final : Bool,
    let b := flagByte field blank final
    b.getLsbD 7 = true ∧ b.getLsbD 6 = field ∧ b.getLsbD 5 = blank ∧ b.getLsbD 4 = final
    ∧ b.getLsbD 3 = (blank ^^ final) ∧ b.getLsbD 2 = (field ^^ final)
    ∧ b.getLsbD 1 = (field ^^ blank) ∧ b.getLsbD 0 = (field ^^ blank ^^ final) := by decide

theorem blackBytes_get {n k : Nat} (inside : k < 2 * n) :
    (blackBytes (2 * n))[k]? = some (if k % 2 = 0 then 128 else 16) := by
  have byte := blackBytes_eq n k
  rw [if_pos inside, List.getD_eq_getElem?_getD] at byte
  have stands : k < (blackBytes (2 * n)).length := by rwa [blackBytes_length]
  rw [List.getElem?_eq_getElem stands] at byte ⊢
  exact congrArg some byte

theorem blankingBytes_even (std : Standard) : ∃ n, blankingBytes std = 2 * n := by
  cases std
  · exact ⟨134, rfl⟩
  · exact ⟨140, rfl⟩

theorem blanking_length (std : Standard) : (blackBytes (blankingBytes std)).length = blankingBytes std := by
  obtain ⟨n, even⟩ := blankingBytes_even std
  rw [even, blackBytes_length]

section
variable (std : Standard) (bottom blank : Bool) (content : List Byte)

theorem streamLine_length :
    (streamLine std bottom blank content).length = 8 + blankingBytes std + content.length := by
  simp only [streamLine, timingCodeBytes, List.length_append, blanking_length, List.length_cons,
    List.length_nil]
  omega

/-- The end-of-active code that begins a line. -/
theorem streamLine_endCode :
    (streamLine std bottom blank content).take 4 = timingCodeBytes bottom blank true := rfl

theorem streamLine_afterEndCode : (streamLine std bottom blank content).drop 4 =
    blackBytes (blankingBytes std) ++ (timingCodeBytes bottom blank false ++ content) := by
  simp only [streamLine, List.append_assoc]
  rfl

theorem streamLine_horizontal {k : Nat} (inside : k < blankingBytes std) :
    ((streamLine std bottom blank content).drop 4)[k]? = some (if k % 2 = 0 then 128 else 16) := by
  rw [streamLine_afterEndCode, List.getElem?_append_left (by rwa [blanking_length])]
  obtain ⟨n, even⟩ := blankingBytes_even std
  rw [even] at inside ⊢
  exact blackBytes_get inside

theorem streamLine_afterBlanking : (streamLine std bottom blank content).drop (4 + blankingBytes std) =
    timingCodeBytes bottom blank false ++ content := by
  rw [← List.drop_drop, streamLine_afterEndCode, List.drop_left' (blanking_length std)]

/-- The start-of-active code. -/
theorem streamLine_startCode : ((streamLine std bottom blank content).drop (4 + blankingBytes std)).take 4 =
    timingCodeBytes bottom blank false := by
  rw [streamLine_afterBlanking]
  rfl

theorem streamLine_content :
    (streamLine std bottom blank content).drop (8 + blankingBytes std) = content := by
  rw [show 8 + blankingBytes std = 4 + blankingBytes std + 4 by omega, ← List.drop_drop,
    streamLine_afterBlanking]
  rfl

end

theorem activeBytes_length (s : State) (hd : Head) (y : Nat) : (activeBytes s hd y).length = 1440 :=
  length_flatMap_range (m := 4) (f := fun k => pairBytes s hd (2 * k) y) (fun _ => rfl) 360

theorem frameLine_eq (bottom : Bool) (n : Nat) :
    frameLine (!bottom) n = 2 * n + if bottom then 1 else 0 := by
  cases bottom <;> rfl

/-- R58: a line of a field is a line of the stream with 1440 bytes of content, black in its first lines. -/
theorem fieldLine_eq (s : State) (hd : Head) (bottom : Bool) (n : Nat) :
    ∃ content, fieldLine s hd bottom n = streamLine (s.head hd).standard bottom
        (n < blankingLines (s.head hd).standard bottom) content
      ∧ content.length = 1440
      ∧ (n < blankingLines (s.head hd).standard bottom → content = blackBytes 1440)
      ∧ (blankingLines (s.head hd).standard bottom ≤ n → content = activeBytes s hd
          (2 * (n - blankingLines (s.head hd).standard bottom) + if bottom then 1 else 0)) := by
  unfold fieldLine
  dsimp only
  split
  · next blank =>
      exact ⟨blackBytes Config.lineBytes, by rw [decide_eq_true blank], blackBytes_length 720, fun _ => rfl,
        fun active => absurd blank (Nat.not_lt.2 active)⟩
  · next active =>
      exact ⟨_, by rw [decide_eq_false active], activeBytes_length s hd _, fun blank => absurd blank active,
        fun _ => by rw [frameLine_eq]⟩

/-- R59. -/
theorem clampByte_inside (b : Byte) : clampByte b ≠ 0 ∧ clampByte b ≠ 255 := by
  unfold clampByte
  split
  · decide
  split
  · decide
  · next zero full => exact ⟨zero, full⟩

theorem activeBytes_inside {s : State} {hd : Head} {y : Nat} {b : Byte} (mem : b ∈ activeBytes s hd y) :
    b ≠ 0 ∧ b ≠ 255 := by
  obtain ⟨k, -, pair⟩ := List.mem_flatMap.1 mem
  simp only [pairBytes, List.mem_cons, List.not_mem_nil, or_false] at pair
  rcases pair with rfl | rfl | rfl | rfl <;> exact clampByte_inside _

section
variable {s : State} {hd : Head}

theorem outputStream_frame (frame : (s.head hd).inFlight = true) : outputStream s hd = frameBytes s hd :=
  if_pos frame

theorem outputStream_between (between : (s.head hd).inFlight = false) :
    outputStream s hd = if (s.head hd).sending then [] else [16] := by
  unfold outputStream
  rw [between]
  rfl

end

/-- R58, R59: line `n` of a field with `vertical` blanking lines, each with `horizontal` bytes of blanking. -/
structure LineForm (s : State) (hd : Head) (bottom : Bool) (n horizontal vertical : Nat)
    (line : List Byte) : Prop where
  length : line.length = 1448 + horizontal
  endCode : line.take 4 = [255, 0, 0, flagByte bottom (n < vertical) true]
  blanking : ∀ k, k < horizontal → (line.drop 4)[k]? = some (if k % 2 = 0 then 128 else 16)
  startCode : (line.drop (4 + horizontal)).take 4 = [255, 0, 0, flagByte bottom (n < vertical) false]
  black : n < vertical → ∀ k, k < 1440 →
    (line.drop (8 + horizontal))[k]? = some (if k % 2 = 0 then 128 else 16)
  active : vertical ≤ n → line.drop (8 + horizontal)
    = activeBytes s hd (2 * (n - vertical) + if bottom then 1 else 0)

theorem fieldLine_form (s : State) (hd : Head) (bottom : Bool) (n : Nat) :
    LineForm s hd bottom n (blankingBytes (s.head hd).standard) (blankingLines (s.head hd).standard bottom)
      (fieldLine s hd bottom n) := by
  obtain ⟨content, line, length, black, active⟩ := fieldLine_eq s hd bottom n
  rw [line]
  refine ⟨?_, streamLine_endCode .., fun k inside => streamLine_horizontal _ _ _ _ inside,
    streamLine_startCode .., fun blank k inside => ?_, fun after => ?_⟩
  · rw [streamLine_length, length]
    omega
  · rw [streamLine_content, black blank]
    exact blackBytes_get (n := 720) inside
  · rw [streamLine_content, active after]

/-- Settles O51: the codes of an input port, then the lines of an output port, standard by standard. -/
theorem timingCodesAndOutputLines : Obligations.TimingCodesAndOutputLines := by
  refine ⟨flagByte_bits,
    fun p f g bytes s field blank final => timingCode_sameFlags field blank final bytes,
    fun p f g before after s t free run => timingCode_split free run,
    fun p f before s free => timingCode_overlapped free f, ?_⟩
  intro s hd bottom n y line
  have form := fieldLine_form s hd bottom n
  have frame (flies : (s.head hd).inFlight = true) : outputStream s hd = frameBytes s hd :=
    outputStream_frame flies
  have between (ended : (s.head hd).inFlight = false) := outputStream_between ended
  unfold frameBytes at frame
  cases std : (s.head hd).standard <;> cases bottom
  all_goals
    rw [std] at form frame
    exact ⟨form.length, form.endCode, form.blanking, form.startCode, form.black, form.active,
      fun b mem => activeBytes_inside mem, frame, fun ended sends => (between ended).trans (if_pos sends),
      fun ended level => (between ended).trans (if_neg (by rw [level]; exact nofun))⟩

end Sys2Proof.Machine
end

section
/-! PROOF. How the operations of the lock monitor behave, case by case: a verdict, the end of a field, the
close and the begin of an active line, and a timing code. -/

namespace Sys2Proof.Machine

/-! ### The record of a source replaced (R73) -/

theorem changeSource_sources (s : State) (i : SourceId) (r : SourceRecord) :
    (s.changeSource i r).sources = s.sources.set i r := by
  unfold State.changeSource
  split <;> rfl

theorem changeSource_pages (s : State) (i : SourceId) (r : SourceRecord) :
    (s.changeSource i r).pages = s.pages := by
  unfold State.changeSource
  split <;> rfl

theorem changeSource_store (s : State) (i : SourceId) (r : SourceRecord) :
    (s.changeSource i r).store = s.store := by
  unfold State.changeSource
  split <;> rfl

/-! ### A verdict (R65, R69 to R72) -/

theorem measured_s525 {n : Nat} : measured n = some .s525 ↔ 240 ≤ n ∧ n ≤ 244 := by
  unfold measured
  split
  · next inside => exact iff_of_true rfl inside
  split
  · next outside _ => exact iff_of_false nofun outside
  · next outside _ => exact iff_of_false nofun outside

theorem measured_s625 {n : Nat} : measured n = some .s625 ↔ 286 ≤ n ∧ n ≤ 290 := by
  unfold measured
  split
  · exact iff_of_false nofun (by omega)
  split
  · next inside => exact iff_of_true rfl inside
  · next outside => exact iff_of_false nofun outside

theorem measured_eq_none {n : Nat} :
    measured n = none ↔ ¬ ((240 ≤ n ∧ n ≤ 244) ∨ (286 ≤ n ∧ n ≤ 290)) := by
  rw [← measured_s525, ← measured_s625]
  cases measured n with
  | none => simp
  | some std => cases std <;> simp

/-- R65 condition 4. -/
theorem requiredMet_iff {r : SourceRecord} {std : Standard} : requiredMet r std = true ↔
    if r.state = .locked ∨ r.state = .unstable then r.standard = some std
    else ∀ e, r.expect = .only e → some std = some e := by
  unfold requiredMet
  cases state : r.state
  case locked => simp
  case unstable => simp
  all_goals
    cases r.expect with
    | auto => simp
    | only e => simp [eq_comm]

/-- R65: the judgement is that of the four conditions. -/
theorem goodField_iff {r : SourceRecord} {f : FieldInProgress} :
    goodField r f = true ↔ FieldGood r f := by
  unfold goodField FieldGood
  rw [Bool.and_eq_true, Bool.and_eq_true, decide_eq_true_eq, and_assoc]
  refine and_congr_right fun _ => and_congr_right fun _ => ?_
  cases std : measured f.lines with
  | none => exact iff_of_false nofun fun ⟨count, _⟩ => measured_eq_none.1 std count
  | some e =>
      have counted : (240 ≤ f.lines ∧ f.lines ≤ 244) ∨ (286 ≤ f.lines ∧ f.lines ≤ 290) := by
        by_contra outside
        exact absurd (std.symm.trans (measured_eq_none.2 outside)) nofun
      rw [and_iff_right counted]
      exact requiredMet_iff

/-- R69 to R72: a verdict reaches the state, the standard, the counters and the candidate alone. -/
theorem applyVerdict_frame (p : LockParams) (r : SourceRecord) (good : Bool) (std : Option Standard) :
    applyVerdict p r good std = { r with
      state := (applyVerdict p r good std).state
      standard := (applyVerdict p r good std).standard
      goodRun := (applyVerdict p r good std).goodRun
      badRun := (applyVerdict p r good std).badRun
      candidate := (applyVerdict p r good std).candidate } := by
  unfold applyVerdict
  split
  · unfold searchingGood
    generalize (if r.candidate = none ∨ r.candidate = std then r.goodRun + 1 else 1) = run
    dsimp only
    split <;> rfl
  · rfl
  · rfl
  · rfl
  · unfold unstableGood; split <;> rfl
  · unfold unstableBad; split <;> rfl
  · rfl
  · rfl
  · rfl

/-- R65, R66: field `f` is over, and its bit is the last one. -/
def SourceRecord.fieldClosed (r : SourceRecord) (f : FieldInProgress) : SourceRecord :=
  { r with lastBit := some f.bit, field := none }

/-- R66: the record of a source after the verdict on its field `f`. -/
def SourceRecord.judged (p : LockParams) (r : SourceRecord) (f : FieldInProgress) : SourceRecord :=
  (applyVerdict p r (goodField r f) (measured f.lines)).fieldClosed f

theorem SourceRecord.judged_frame (p : LockParams) (r : SourceRecord) (f : FieldInProgress) :
    r.judged p f = { r with
      state := (r.judged p f).state, standard := (r.judged p f).standard
      goodRun := (r.judged p f).goodRun, badRun := (r.judged p f).badRun
      candidate := (r.judged p f).candidate, lastBit := some f.bit, field := none } :=
  congrArg (SourceRecord.fieldClosed · f)
    (applyVerdict_frame p r (goodField r f) (measured f.lines))

/-! ### The SDRAM under a field (R64, R82) -/

theorem fillField_eq (i : SourceId) (top : Bool) (k : Nat) (s : State) :
    fillField i top k s = s.setStore (fillField i top k s).store := by
  unfold fillField
  split <;> rfl

theorem storeActiveLine_eq (i : SourceId) (top : Bool) (k : Nat) (bytes : List Byte) (s : State) :
    storeActiveLine i top k bytes s = s.setStore (storeActiveLine i top k bytes s).store := by
  unfold storeActiveLine
  split
  · split <;> rfl
  · rfl

/-! ### Fields and lines (R62, R63, R66) -/

section
variable {i : SourceId} {s : State}

theorem fieldEnd_none (idle : (s.source i).field = none) : fieldEnd i s = s := by
  unfold fieldEnd
  dsimp only
  rw [idle]

theorem fieldEnd_some {f : FieldInProgress} (field : (s.source i).field = some f) :
    fieldEnd i s =
      ((s.setStore (fillField i (isTop (s.source i) f.bit) f.lines s).store).setPage i
        ((s.page i).fieldEnd (s.source i).state ((s.source i).judged s.params f).state
          (isTop (s.source i) f.bit) (goodField (s.source i) f))).changeSource i
        ((s.source i).judged s.params f) := by
  unfold fieldEnd
  dsimp only
  rw [field]
  dsimp only
  rw [fillField_eq]
  rfl

theorem closeLine_closed (closed : (s.source i).lineOpen = false) (final : Bool) (bytes : List Byte) :
    closeLine i final bytes s = s := by
  unfold closeLine
  dsimp only
  rw [closed]
  rfl

theorem closeLine_apart (opened : (s.source i).lineOpen = true) (idle : (s.source i).field = none)
    (final : Bool) (bytes : List Byte) :
    closeLine i final bytes s = s.setSource i { s.source i with lineOpen := false } := by
  unfold closeLine
  dsimp only
  rw [opened, idle]
  rfl

/-- R63: a field with one more line. -/
def FieldInProgress.counted (f : FieldInProgress) (ok : Bool) : FieldInProgress :=
  { f with lines := f.lines + 1, wellFormed := f.wellFormed && ok }

/-- R62, R63: the part once a line of field `f` is stored and counted, before any field end. -/
def countLine (i : SourceId) (f : FieldInProgress) (final : Bool) (bytes : List Byte) (s : State) : State :=
  (storeActiveLine i (isTop (s.source i) f.bit) f.lines bytes s).setSource i
    { s.source i with
      lineOpen := false, field := some (f.counted (final && bytes.length = Config.lineBytes)) }

theorem closeLine_some {f : FieldInProgress} (opened : (s.source i).lineOpen = true)
    (field : (s.source i).field = some f) (final : Bool) (bytes : List Byte) :
    closeLine i final bytes s =
      if 290 ≤ f.lines then fieldEnd i (countLine i f final bytes s) else countLine i f final bytes s := by
  unfold closeLine
  dsimp only
  rw [opened, field]
  have forced : Config.forcedFieldLines ≤ f.lines + 1 ↔ 290 ≤ f.lines := Nat.succ_le_succ_iff
  simp only [if_true, forced]
  rfl

theorem openLine_within (within : (s.source i).sawBlank = false ∨ (s.source i).field ≠ none) (bit : Bool) :
    openLine i bit s = s.setSource i { s.source i with lineOpen := true } := by
  unfold openLine
  refine if_neg fun ⟨blank, idle⟩ => ?_
  exact within.elim (fun none_seen => absurd (blank.symm.trans none_seen) nofun) (absurd idle)

/-- R63: a field begun with its first line. -/
def SourceRecord.begun (r : SourceRecord) (bit : Bool) : SourceRecord :=
  { r with lineOpen := true, sawBlank := false, field := some { bit, lines := 0, wellFormed := true } }

theorem openLine_begins (blank : (s.source i).sawBlank = true) (idle : (s.source i).field = none)
    (bit : Bool) : openLine i bit s =
      if isTop (s.source i) bit then topFieldStart i (s.setSource i ((s.source i).begun bit))
      else s.setSource i ((s.source i).begun bit) := by
  unfold openLine
  exact if_pos ⟨blank, idle⟩

end

/-! ### A timing code (R62, R63, R67) -/

/-- R67: the record with its loss timer begun anew. -/
def SourceRecord.restarted (r : SourceRecord) (p : LockParams) : SourceRecord :=
  { r with lossTimer := some p.lossTimeout }

/-- R67: any code begins the loss timer of its source anew. -/
def restartTimer (i : SourceId) (s : State) : State := s.setSource i ((s.source i).restarted s.params)

theorem restartTimer_source (i : SourceId) (s : State) :
    (restartTimer i s).source i = (s.source i).restarted s.params := State.setSource_source_same ..

/-- R62, R63: what a timing code does once the open line is closed. -/
def actOnCode (i : SourceId) (flags : Byte) (s : State) : State :=
  if blankFlag flags then blankCode i s
  else if endFlag flags then s
  else openLine i (fieldFlag flags) s

theorem takeCode_eq (i : SourceId) (flags : Byte) (bytes : List Byte) (s : State) :
    takeCode i flags bytes s = actOnCode i flags (closeLine i (endFlag flags) bytes (restartTimer i s)) :=
  rfl

/-- R62: bytes without a code and the code after them are one code for the source that owns the port. -/
theorem timingCode_one {p : PortId} {i : SourceId} {s : State} {bytes : List Byte}
    (owns : s.owner p = some i) (free : codeFree bytes = true) (flags : Byte) :
    exec (.timingCode p flags bytes) s
      = .next (actOnCode i flags (closeLine i (endFlag flags) bytes (restartTimer i s))) := by
  rw [timingCode_owned owns, codesIn_of_codeFree free]
  rfl

section
variable {i : SourceId} {flags : Byte} {s : State}

theorem actOnCode_blank (blank : flags.getLsbD 5 = true) : actOnCode i flags s = blankCode i s := if_pos blank

theorem actOnCode_final (active : flags.getLsbD 5 = false) (final : flags.getLsbD 4 = true) :
    actOnCode i flags s = s := by
  unfold actOnCode blankFlag endFlag
  rw [active, final]
  rfl

theorem actOnCode_start (active : flags.getLsbD 5 = false) (start : flags.getLsbD 4 = false) :
    actOnCode i flags s = openLine i (flags.getLsbD 6) s := by
  unfold actOnCode blankFlag endFlag
  rw [active, start]
  rfl

/-- R62, R67: a code where no line is open. -/
theorem timingCode_closed {p : PortId} {bytes : List Byte} (owns : s.owner p = some i)
    (free : codeFree bytes = true) (closed : (s.source i).lineOpen = false) (flags : Byte) :
    exec (.timingCode p flags bytes) s = .next (actOnCode i flags (restartTimer i s)) := by
  have closed' : ((restartTimer i s).source i).lineOpen = false := by
    rw [restartTimer_source]
    exact closed
  rw [timingCode_one owns free, closeLine_closed closed']

end

end Sys2Proof.Machine
end

section
/-! PROOF. The sources and their ports (R60, R61, O54): the stream and the verdicts of a source keep what
SOURCE_SET gave it and what it owns; SOURCE_SET itself takes a free port, and SOURCE_DISABLE leaves one. -/

namespace Sys2Proof.Machine

/-! ### What SOURCE_SET gives a source (R76) -/

/-- Enabled or not, h_start and v_start. -/
def SourceRecord.setup (r : SourceRecord) : Bool × Nat × Nat := (r.enabled, r.hStart, r.vStart)

theorem SourceRecord.judged_setup (p : LockParams) (r : SourceRecord) (f : FieldInProgress) :
    (r.judged p f).setup = r.setup := by
  rw [judged_frame]
  rfl

/-- From `s` to `t` every source keeps what SOURCE_SET gave it. -/
def SetupKept (s t : State) : Prop := ∀ j, (t.source j).setup = (s.source j).setup

namespace SetupKept
variable {s t u : State}

theorem refl (s : State) : SetupKept s s := fun _ => rfl

theorem trans (a : SetupKept s t) (b : SetupKept t u) : SetupKept s u := fun j => (b j).trans (a j)

theorem of_sources (sources : t.sources = s.sources) : SetupKept s t := fun j => by
  unfold State.source
  rw [sources]

theorem of_set (i : SourceId) {r : SourceRecord} (sources : t.sources = s.sources.set i r)
    (setup : r.setup = (s.source i).setup) : SetupKept s t := fun j => by
  unfold State.source
  rw [sources, Table.get_set]
  split
  · next same => exact same ▸ setup
  · rfl

theorem fieldEnd (i : SourceId) (s : State) : SetupKept s (fieldEnd i s) := by
  cases field : (s.source i).field with
  | none => rw [fieldEnd_none field]; exact refl s
  | some f =>
      rw [fieldEnd_some field]
      exact of_set i (changeSource_sources ..) (SourceRecord.judged_setup ..)

theorem closeLine (i : SourceId) (final : Bool) (bytes : List Byte) (s : State) :
    SetupKept s (closeLine i final bytes s) := by
  cases opened : (s.source i).lineOpen with
  | false => rw [closeLine_closed opened]; exact refl s
  | true =>
      cases field : (s.source i).field with
      | none => rw [closeLine_apart opened field]; exact of_set i rfl rfl
      | some f =>
          have counted : SetupKept s (countLine i f final bytes s) :=
            of_set i (congrArg (Table.set · i _) (storeActiveLine_sources ..)) rfl
          rw [closeLine_some opened field]
          split
          · exact counted.trans (fieldEnd i _)
          · exact counted

theorem openLine (i : SourceId) (bit : Bool) (s : State) : SetupKept s (openLine i bit s) := by
  by_cases within : (s.source i).sawBlank = false ∨ (s.source i).field ≠ none
  · rw [openLine_within within]
    exact of_set i rfl rfl
  · obtain ⟨blank, idle⟩ := not_or.1 within
    have begun : SetupKept s (s.setSource i ((s.source i).begun bit)) := of_set i rfl rfl
    rw [openLine_begins (eq_true_of_ne_false blank) (not_not.1 idle)]
    split
    · exact begun.trans (of_sources (topFieldStart_sources ..))
    · exact begun

theorem takeCode (i : SourceId) (flags : Byte) (bytes : List Byte) (s : State) :
    SetupKept s (takeCode i flags bytes s) := by
  have timed : SetupKept s (restartTimer i s) := of_set i rfl rfl
  have closed := timed.trans (closeLine i (endFlag flags) bytes _)
  rw [takeCode_eq]
  unfold actOnCode
  split
  · exact (closed.trans (fieldEnd i _)).trans (of_set i rfl rfl)
  split
  · exact closed
  · exact closed.trans (openLine i _ _)

end SetupKept

/-! ### The sources in order -/

/-- Table 4-1, R60: a record that is OFF exactly when not enabled, its starts in their ranges. -/
structure SourceRecord.InOrder (r : SourceRecord) : Prop where
  off : r.state = .off ↔ r.enabled = false
  starts : r.hStart ≤ 16 ∧ r.hStart % 2 = 0 ∧ r.vStart ≤ 15

theorem SourceRecord.InOrder.alike {r r' : SourceRecord} (ok : r.InOrder) (owns : r.OwnsAlike r')
    (setup : r'.setup = r.setup) : r'.InOrder := by
  obtain ⟨enabled, hStart, vStart⟩ : r'.enabled = r.enabled ∧ r'.hStart = r.hStart ∧ r'.vStart = r.vStart := by
    simpa only [SourceRecord.setup, Prod.mk.injEq] using setup
  refine ⟨?_, ?_⟩
  · rw [owns.off, enabled]; exact ok.off
  · rw [hStart, vStart]; exact ok.starts

/-- R61: no two sources that are not OFF own one port. -/
def State.PortsApart (s : State) : Prop :=
  ∀ i k, i ≠ k → (s.source i).state ≠ .off → (s.source k).state ≠ .off →
    (s.source i).port ≠ (s.source k).port

theorem State.sourcesOk_iff {s : State} : s.SourcesOk ↔ (∀ i, (s.source i).InOrder) ∧ s.PortsApart :=
  ⟨fun ⟨off, starts, apart⟩ => ⟨fun i => ⟨off i, starts i⟩, apart⟩,
    fun ⟨each, apart⟩ => ⟨fun i => (each i).off, fun i => (each i).starts, apart⟩⟩

theorem portHolder_none {s : State} {i : SourceId} {p : PortId} : s.portHolder i p = none ↔
    ∀ k, k ≠ i → (s.source k).state ≠ .off → (s.source k).port ≠ p := by
  unfold State.portHolder
  rw [List.find?_eq_none]
  simp

namespace State.SourcesOk
variable {s t : State}

theorem kept (ok : s.SourcesOk) (owners : OwnersKept s t) (setup : SetupKept s t) : t.SourcesOk := by
  obtain ⟨each, apart⟩ := sourcesOk_iff.1 ok
  refine sourcesOk_iff.2 ⟨fun j => (each j).alike (owners j) (setup j), fun j k other jOn kOn => ?_⟩
  rw [(owners j).port, (owners k).port]
  exact apart j k other ((owners j).off.not.1 jOn) ((owners k).off.not.1 kOn)

/-- An event that reaches no source. -/
theorem of_sources (ok : s.SourcesOk) (sources : t.sources = s.sources) : t.SourcesOk :=
  ok.kept (.of_sources sources) (.of_sources sources)

theorem alarm (ok : s.SourcesOk) (frame : AlarmFrame s t) : t.SourcesOk :=
  ok.of_sources ((congrArg State.sources frame).trans rfl)

theorem tour (ok : s.SourcesOk) (frame : TourFrame s t) : t.SourcesOk :=
  ok.of_sources ((congrArg State.sources frame).trans rfl)

/-- A new record for one source, which is OFF or has a port that no other source owns. -/
theorem set (ok : s.SourcesOk) (i : SourceId) {r : SourceRecord} (sources : t.sources = s.sources.set i r)
    (new : r.InOrder) (free : r.state ≠ .off →
      ∀ k, k ≠ i → (s.source k).state ≠ .off → (s.source k).port ≠ r.port) : t.SourcesOk := by
  obtain ⟨each, apart⟩ := sourcesOk_iff.1 ok
  have same : t.source i = r := by
    rw [State.source, sources]
    exact Table.get_set_same ..
  have others {j : SourceId} (other : j ≠ i) : t.source j = s.source j := by
    rw [State.source, sources]
    exact Table.get_set_other _ _ other
  refine sourcesOk_iff.2 ⟨fun j => ?_, fun j k other jOn kOn => ?_⟩
  · by_cases here : j = i
    · rw [here, same]; exact new
    · rw [others here]; exact each j
  · by_cases jHere : j = i
    · subst jHere
      rw [others other.symm] at kOn ⊢
      rw [same] at jOn ⊢
      exact (free jOn k other.symm kOn).symm
    rw [others jHere] at jOn ⊢
    by_cases kHere : k = i
    · subst kHere
      rw [same] at kOn ⊢
      exact free kOn j jHere jOn
    · rw [others kHere] at kOn ⊢
      exact apart j k other jOn kOn

/-- R61, R62: a stretch of the stream. -/
theorem takeCodes (ok : s.SourcesOk) (i : SourceId) (codes : List (List Byte × Byte)) :
    (codes.foldl (fun t c => takeCode i c.2 c.1 t) s).SourcesOk :=
  List.foldlRecOn codes _ ok fun _ ok c _ => ok.kept (.takeCode i c.2 c.1 _) (.takeCode i c.2 c.1 _)

theorem reset : State.reset.SourcesOk := by
  have each (i : SourceId) : State.reset.source i = SourceRecord.reset i := Table.get_ofFn ..
  refine sourcesOk_iff.2 ⟨fun i => ?_, fun i k _ on => ?_⟩
  · rw [each]
    exact ⟨iff_of_true rfl rfl, Nat.zero_le _, rfl, Nat.zero_le _⟩
  · rw [each] at on
    exact absurd rfl on

end State.SourcesOk

/-! ### The layout side reaches no source -/

theorem endCommit_sources (h : Head) (r : Result) (s : State) : (endCommit h r s).sources = s.sources := by
  obtain ⟨mark, eq⟩ := endCommit_eq h r s
  rw [eq]
  rfl

theorem applyBank_sources (h : Head) (new : Bank) (s : State) : (applyBank h new s).sources = s.sources := by
  unfold applyBank
  dsimp only
  rw [carryOver_records]
  rfl

theorem applyCommit_sources (h : Head) (detail : Nat) (s : State) :
    (applyCommit h detail s).sources = s.sources := by
  cases pending : (s.dir h).commit with
  | none => rw [applyCommit_none pending]
  | some c =>
      rw [applyCommit_some pending]
      exact applyBank_sources h c.bank _

theorem completeStop_sources (h : Head) (s : State) : (completeStop h s).sources = s.sources := by
  rw [completeStop_eq]
  exact applyCommit_sources h 0 _

/-! ### Every step -/

/-- R75 to R77: SOURCE_SET and SOURCE_DISABLE alone reach the setup of a source. -/
theorem RingEffect.sourcesOk {s u : State} (e : RingEffect s u) (ok : s.SourcesOk) : u.SourcesOk := by
  have same {t : State} (sources : t.sources = s.sources) : t.SourcesOk := ok.of_sources sources
  cases e with
  | place => exact same rfl
  | modify => exact same rfl
  | restack => exact same rfl
  | retire => exact same rfl
  | clear => exact same rfl
  | revert => exact same rfl
  | commitNow hd => exact same ((applyBank_sources hd _ _).trans (endCommit_sources hd _ s))
  | commitLater hd => exact same (endCommit_sources hd .superseded s)
  | cancel hd => exact same (endCommit_sources hd _ s)
  | startHead => exact same rfl
  | stopInFrame => exact same rfl
  | stopNow hd => exact same (completeStop_sources hd s)
  | nothing => exact ok
  | colour => exact same rfl
  | background => exact same rfl
  | configure i p e hStart vStart swap starts free =>
      exact ok.set i (changeSource_sources ..) ⟨iff_of_false nofun nofun, starts⟩
        fun _ => portHolder_none.1 free
  | disable i =>
      exact ok.set i (changeSource_sources ..)
        ⟨iff_of_true rfl rfl, ((State.sourcesOk_iff.1 ok).1 i).starts⟩ fun on => absurd rfl on
  | lockParams => exact same rfl
  | masks => exact same rfl
  | defineTour => exact same rfl
  | redefineTour => exact same rfl
  | retireTour => exact same rfl
  | control => exact ok.tour (controlRuntime_tourFrame ..)
  | line l r => exact ok.alarm (lineSet_alarmFrame l r s)
  | rule n => exact (ok.alarm (removeEntryOf_alarmFrame n s)).of_sources rfl
  | trigger n r u position stands fires =>
      have frame := fire_alarmFrame .software n r s
      rw [fires] at frame
      exact ok.alarm frame
  | clearEntries => exact ok.alarm ((AlarmFrame.refl s).replaceList _ _ _)

/-- Each event of the part. -/
theorem ExecEffect.sourcesOk {s t : State} (e : ExecEffect s t) (ok : s.SourcesOk) : t.SourcesOk := by
  have same {t : State} (sources : t.sources = s.sources) : t.SourcesOk := ok.of_sources sources
  cases e with
  | command p q effect =>
      have before : (s.setPort p).SourcesOk := same rfl
      exact (effect.sourcesOk before).of_sources rfl
  | port => exact same rfl
  | portReset => exact same rfl
  | resultWrite => exact same rfl
  | frameStart h => exact same (applyCommit_sources h (nextFrame s h).toNat s)
  | frameEnd => exact same rfl
  | lastFrameEnd h => exact same (completeStop_sources h s)
  | timingCodes p i owns codes => exact ok.takeCodes i codes
  | lossExpiry i on =>
      have alike : (s.source i).OwnsAlike (s.source i).expired := .of_on on nofun rfl
      have paged : OwnersKept s (s.setPage i (s.page i).abandoned) := .of_sources rfl
      exact ok.kept (paged.trans (.changeSource i alike)) (.of_set i (changeSource_sources ..) rfl)
  | dwellExpiry => exact ok.tour (advanceRuntime_tourFrame ..)
  | pin => exact same rfl
  | sample l =>
      exact ok.alarm (((AlarmFrame.refl s).setLine l _).trans (takeSample_alarmFrame l _))
  | debounceExpiry l => exact ok.alarm (lineCompares_alarmFrame l s)
  | holdExpiry => exact ok.alarm ((AlarmFrame.refl s).replaceList _ _ _)
  | deviceReset => exact State.SourcesOk.reset.of_sources rfl

/-- R67: the count-down reaches the loss timers. -/
theorem countDown_source (s : State) (i : SourceId) : (countDown s).source i = (s.source i).tick :=
  Table.get_map ..

theorem tick_sourcesOk {s : State} (ok : s.SourcesOk) : (tick s).SourcesOk := by
  have owners : OwnersKept s (countDown s) := fun j => by
    rw [countDown_source]
    exact ⟨rfl, .rfl⟩
  have setup : SetupKept s (countDown s) := fun j => by
    rw [countDown_source]
    rfl
  exact (ok.kept owners setup).alarm (tick_alarmFrame s)

/-- Settles O54: the queue leaves the sources, and a millisecond and every command keep them in order. -/
theorem everyStepKeepsPortsApart : Obligations.EveryStepKeepsPortsApart := fun _ _ ok run =>
  step_keeps (fun _ _ ok => ok.of_sources rfl) (fun _ ok => tick_sourcesOk ok)
    (fun _ _ effect ok => effect.sourcesOk ok) ok run

end Sys2Proof.Machine
end

section
/-! PROOF. The commands of the sources (O24): SOURCE_SET, SOURCE_DISABLE and LOCK_PARAMS, and the expiry of a
loss timer. -/

namespace Sys2Proof.Machine

/-- The first number that passes a test. -/
theorem find?_finRange_first {n : Nat} {p : Fin n → Bool} {k : Fin n} (passes : p k = true)
    (first : ∀ j < k, p j = false) : (List.finRange n).find? p = some k := by
  rw [← List.ofFn_id]
  exact (List.find?_ofFn_eq_some_of_injective Function.injective_id).2
    ⟨passes, fun j lower => Bool.eq_false_iff.1 (first j lower)⟩

/-! ### A source's record and page table replaced (R73) -/

section
variable {i : SourceId} {r : SourceRecord} {s : State}

theorem changeSource_still (still : r.state = (s.source i).state) :
    s.changeSource i r = s.setSource i r := if_pos still

theorem changeSource_moved (moved : r.state ≠ (s.source i).state) :
    s.changeSource i r = (s.setSource i r).raise (.sourceState i) (.state r.state) := if_neg moved

theorem writtenHeights_eq (t : PageTable) : t.writtenHeights = heightsEnded t := by
  unfold PageTable.writtenHeights heightsEnded
  cases t.writer <;> rfl

theorem abandoned_eq (t : PageTable) : t.abandoned = { t with writer := none, heights := heightsEnded t } := by
  rw [← writtenHeights_eq]
  rfl

/-- A command that is answered OK and leaves source `i` with a new record and page table. -/
theorem arrive_changeSource {c : Instr} {h : Header} {code d : Nat} {block : State → Reply}
    {pages : PageTable} (ready : s.Ready)
    (reply : block s.taken = ((s.taken.setPage i pages).changeSource i r, .done .ok d)) :
    arrive c (answering h code block) s
      = ((s.setPage i pages).changeSource i r).afterCommand (answers h code .ok d) := by
  by_cases still : r.state = ((s.setPage i pages).source i).state
  · have still' : r.state = ((s.taken.setPage i pages).source i).state := still
    rw [changeSource_still still'] at reply
    rw [changeSource_still still]
    exact arrive_ok ready reply rfl
  · have moved : r.state ≠ ((s.taken.setPage i pages).source i).state := still
    rw [changeSource_moved moved] at reply
    rw [changeSource_moved still]
    exact arrive_done (pre := []) (m := s.port.mark) ready reply (by rw [List.append_nil]; rfl)

end

/-! ### SOURCE_SET (R75, R76) -/

/-- The operands of SOURCE_SET in the codes of table 12-1. -/
def codeSource (i : SourceId) (p : PortId) (e : Expect) (hStart vStart : Nat) (swap : Bool) : SourceArgs :=
  { source := i.val, port := p.val, expect := codeExpect e, hStart, vStart, fieldSwap := codeYesNo swap }

theorem parseExpect_code (e : Expect) : parseExpect (codeExpect e) = some e := parseExpect_eq.2 rfl

theorem parseYesNo_code (b : Bool) : parseYesNo (codeYesNo b) = some b := parseYesNo_eq.2 rfl

section
variable {h : Header} {i : SourceId} {p : PortId} {e : Expect} {hStart vStart : Nat} {swap : Bool}
  {s : State}

/-- R75: the lowest-numbered other source that owns the port. -/
theorem portHolder_first {k : SourceId} (other : k ≠ i) (on : (s.source k).state ≠ .off)
    (owns : (s.source k).port = p)
    (lowest : ∀ j, j < k → j ≠ i → (s.source j).state ≠ .off → (s.source j).port ≠ p) :
    s.portHolder i p = some k :=
  find?_finRange_first (by simp [other, on, owns]) fun j lower => by
    simpa [imp_iff_not_or, or_assoc] using lowest j lower

theorem sourceSet_inUse (clean : h.clean = true) (starts : hStart ≤ 16 ∧ hStart % 2 = 0 ∧ vStart ≤ 15)
    {k : SourceId} (held : s.portHolder i p = some k) :
    sourceSet h (codeSource i p e hStart vStart swap) s = refuse s .portInUse k.val := by
  obtain ⟨left, even, above⟩ := starts
  simp [sourceSet, codeSource, parseFin_val, parseExpect_code, parseYesNo_code, clean, left, even, above, held]

theorem sourceSet_free (clean : h.clean = true) (starts : hStart ≤ 16 ∧ hStart % 2 = 0 ∧ vStart ≤ 15)
    (free : s.portHolder i p = none) : sourceSet h (codeSource i p e hStart vStart swap) s =
      ((s.setPage i (s.page i).abandoned.cleared).changeSource i
        ((s.source i).configured p e hStart vStart swap s.params.lossTimeout), .done .ok 0) := by
  obtain ⟨left, even, above⟩ := starts
  simp [sourceSet, codeSource, parseFin_val, parseExpect_code, parseYesNo_code, clean, left, even, above, free]

theorem exec_sourceSet_inUse (ready : s.Ready) (clean : h.clean = true)
    (starts : hStart ≤ 16 ∧ hStart % 2 = 0 ∧ vStart ≤ 15) {k : SourceId} (held : s.portHolder i p = some k) :
    exec (.sourceSet h (codeSource i p e hStart vStart swap)) s
      = .next (s.afterCommand (answers h 0x30 .portInUse k.val)) :=
  congrArg _ (arrive_refused ready (sourceSet_inUse (s := s.taken) clean starts held))

theorem exec_sourceSet_free (ready : s.Ready) (clean : h.clean = true)
    (starts : hStart ≤ 16 ∧ hStart % 2 = 0 ∧ vStart ≤ 15) (free : s.portHolder i p = none) :
    exec (.sourceSet h (codeSource i p e hStart vStart swap)) s
      = .next (((s.setPage i (s.page i).abandoned.cleared).changeSource i
          ((s.source i).configured p e hStart vStart swap s.params.lossTimeout)).afterCommand
            (answers h 0x30 .ok 0)) :=
  congrArg _ (arrive_changeSource ready (sourceSet_free (s := s.taken) clean starts free))

end

/-! ### SOURCE_DISABLE and LOCK_PARAMS (R74, R77) -/

section
variable {h : Header} {i : SourceId} {s : State}

theorem exec_sourceDisable_off (ready : s.Ready) (clean : h.clean = true)
    (off : (s.source i).state = .off) :
    exec (.sourceDisable h i.val) s = .next (s.afterCommand (answers h 0x31 .ok 0)) := by
  have off' : (s.taken.source i).state = .off := off
  have reply : sourceDisable h i.val s.taken = (s.taken, .done .ok 0) := by
    simp only [sourceDisable, parseFin_val, clean, off', Bool.not_true, Bool.false_eq_true, if_false, if_true]
  exact congrArg _ (arrive_ok ready reply rfl)

theorem exec_sourceDisable_on (ready : s.Ready) (clean : h.clean = true)
    (on : (s.source i).state ≠ .off) :
    exec (.sourceDisable h i.val) s
      = .next (((s.setPage i (s.page i).abandoned.cleared).changeSource i
          (s.source i).disabled).afterCommand (answers h 0x31 .ok 0)) := by
  have on' : (s.taken.source i).state ≠ .off := on
  have reply : sourceDisable h i.val s.taken
      = ((s.taken.setPage i (s.page i).abandoned.cleared).changeSource i (s.source i).disabled,
        .done .ok 0) := by
    simp only [sourceDisable, parseFin_val, clean, on', Bool.not_true, Bool.false_eq_true, if_false]
    rfl
  exact congrArg _ (arrive_changeSource ready reply)

theorem exec_lockParams {lockCount unstableLimit lossTimeout : Nat} (ready : s.Ready)
    (clean : h.clean = true) (ranges : 2 ≤ lockCount ∧ lockCount ≤ 15 ∧ 2 ≤ unstableLimit
      ∧ unstableLimit ≤ 31 ∧ 20 ≤ lossTimeout ∧ lossTimeout ≤ 1000 ∧ lossTimeout % 20 = 0) :
    exec (.lockParams h lockCount unstableLimit lossTimeout) s = .next
      (({ s with params := { lockCount, unstableLimit, lossTimeout } } : State).afterCommand
        (answers h 0x32 .ok 0)) := by
  have reply : lockParams h lockCount unstableLimit lossTimeout s.taken
      = ({ s.taken with params := { lockCount, unstableLimit, lossTimeout } }, .done .ok 0) := by
    unfold lockParams
    rw [clean]
    exact if_pos ranges
  exact congrArg _ (arrive_ok ready reply rfl)

/-! ### The expiry of a loss timer (R68, R84) -/

theorem exec_lossTimerExpiry_due (on : (s.source i).state ≠ .off) (due : (s.source i).lossTimer = some 0) :
    exec (.lossTimerExpiry i) s
      = .next ((s.setPage i (s.page i).abandoned).changeSource i (s.source i).expired) :=
  congrArg _ (if_pos ⟨on, due⟩)

theorem exec_lossTimerExpiry_idle (idle : (s.source i).state = .off ∨ (s.source i).lossTimer ≠ some 0) :
    exec (.lossTimerExpiry i) s = .next s :=
  congrArg _ (if_neg fun ⟨on, due⟩ => idle.elim on fun running => running due)

end

/-- The change of a source's record, by whether its state moves. -/
theorem changeSource_ite (s : State) (i : SourceId) (r : SourceRecord) : s.changeSource i r =
    if (s.source i).state = r.state then s.setSource i r
    else (s.setSource i r).raise (.sourceState i) (.state r.state) := by
  unfold State.changeSource
  simp only [eq_comm]

/-- Settles O24, command by command. -/
theorem sourceCommandsAndLossExpiry : Obligations.SourceCommandsAndLossExpiry := by
  intro h i s
  refine ⟨fun p e hStart vStart swap ready clean left even above =>
      ⟨fun k other on owns lowest => ?_, fun free => ?_⟩,
    exec_sourceDisable_off, fun ready clean on => ?_,
    fun _ _ _ ready clean minLock maxLock minBad maxBad minLoss maxLoss fields =>
      exec_lockParams ready clean ⟨minLock, maxLock, minBad, maxBad, minLoss, maxLoss, fields⟩,
    fun on due => ?_, exec_lossTimerExpiry_idle⟩
  · exact exec_sourceSet_inUse ready clean ⟨left, even, above⟩ (portHolder_first other on owns lowest)
  · refine (exec_sourceSet_free ready clean ⟨left, even, above⟩ (portHolder_none.2 free)).trans ?_
    rw [abandoned_eq, changeSource_ite]
    rfl
  · refine (exec_sourceDisable_on ready clean on).trans ?_
    rw [abandoned_eq, changeSource_moved on.symm]
    rfl
  · refine (exec_lossTimerExpiry_due on due).trans ?_
    rw [abandoned_eq, changeSource_ite]
    rfl

end Sys2Proof.Machine
end

section
/-! PROOF. The end of a field (O25, O26): the verdict on the source's record, the page table, the black of the
lines that did not come, and the notice. -/

namespace Sys2Proof.Machine

/-! ### The table of verdicts (R69 to R72) -/

section
variable {p : LockParams} {r : SourceRecord} {f : FieldInProgress}

theorem judged_good (good : FieldGood r f) :
    r.judged p f = (applyVerdict p r true (measured f.lines)).fieldClosed f := by
  rw [SourceRecord.judged, goodField_iff.2 good]

theorem judged_bad (bad : ¬ FieldGood r f) :
    r.judged p f = (applyVerdict p r false (measured f.lines)).fieldClosed f := by
  rw [SourceRecord.judged, Bool.eq_false_iff.2 fun good => bad (goodField_iff.1 good)]

theorem judged_searching_good (searching : r.state = .searching) (good : FieldGood r f) :
    r.judged p f = (searchingGood p r (measured f.lines)).fieldClosed f := by
  rw [judged_good good]
  simp only [applyVerdict, searching]

theorem judged_searching_bad (searching : r.state = .searching) (bad : ¬ FieldGood r f) :
    r.judged p f = ({ r with goodRun := 0 } : SourceRecord).fieldClosed f := by
  rw [judged_bad bad]
  simp only [applyVerdict, searching]

theorem judged_locked_good (locked : r.state = .locked) (good : FieldGood r f) :
    r.judged p f = r.fieldClosed f := by
  rw [judged_good good]
  simp only [applyVerdict, locked]

theorem judged_locked_bad (locked : r.state = .locked) (bad : ¬ FieldGood r f) :
    r.judged p f
      = ({ r with state := .unstable, badRun := 1, goodRun := 0 } : SourceRecord).fieldClosed f := by
  rw [judged_bad bad]
  simp only [applyVerdict, locked]

theorem judged_unstable_good (unstable : r.state = .unstable) (good : FieldGood r f) :
    r.judged p f = (unstableGood p r).fieldClosed f := by
  rw [judged_good good]
  simp only [applyVerdict, unstable]

theorem judged_unstable_bad (unstable : r.state = .unstable) (bad : ¬ FieldGood r f) :
    r.judged p f = (unstableBad p r).fieldClosed f := by
  rw [judged_bad bad]
  simp only [applyVerdict, unstable]

theorem judged_lost_good (lost : r.state = .lost) (good : FieldGood r f) :
    r.judged p f = ({ r with
      state := .searching, goodRun := 1, badRun := 0, candidate := measured f.lines
      standard := none } : SourceRecord).fieldClosed f := by
  rw [judged_good good]
  simp only [applyVerdict, lost]

theorem judged_lost_bad (lost : r.state = .lost) (bad : ¬ FieldGood r f) :
    r.judged p f = r.fieldClosed f := by
  rw [judged_bad bad]
  simp only [applyVerdict, lost]

/-- R69: the run of good fields, and the lock once it is long enough. -/
theorem searchingGood_spec (p : LockParams) (searching : r.state = .searching) (std : Option Standard) :
    let r' := searchingGood p r std
    r'.goodRun = (if r.candidate = none ∨ r.candidate = std then r.goodRun + 1 else 1)
    ∧ r'.candidate = std
    ∧ (p.lockCount ≤ r'.goodRun → r'.state = .locked ∧ r'.standard = std ∧ r'.badRun = 0)
    ∧ (r'.goodRun < p.lockCount →
        r'.state = .searching ∧ r'.standard = r.standard ∧ r'.badRun = r.badRun) := by
  unfold searchingGood
  generalize (if r.candidate = none ∨ r.candidate = std then r.goodRun + 1 else 1) = run
  dsimp only
  split
  · next long =>
      exact ⟨rfl, rfl, fun _ => ⟨rfl, rfl, rfl⟩, fun short => absurd long (Nat.not_le.2 short)⟩
  · next short => exact ⟨rfl, rfl, fun long => absurd long short, fun _ => ⟨searching, rfl, rfl⟩⟩

/-- R71: the way back to LOCKED. -/
theorem unstableGood_spec (p : LockParams) (unstable : r.state = .unstable) :
    let r' := unstableGood p r
    r'.goodRun = r.goodRun + 1 ∧ r'.candidate = r.candidate ∧ r'.standard = r.standard
    ∧ (p.lockCount ≤ r.goodRun + 1 → r'.state = .locked ∧ r'.badRun = 0)
    ∧ (r.goodRun + 1 < p.lockCount → r'.state = .unstable ∧ r'.badRun = r.badRun) := by
  unfold unstableGood
  split
  · next long =>
      exact ⟨rfl, rfl, rfl, fun _ => ⟨rfl, rfl⟩, fun short => absurd long (Nat.not_le.2 short)⟩
  · next short => exact ⟨rfl, rfl, rfl, fun long => absurd long short, fun _ => ⟨unstable, rfl⟩⟩

/-- R71: the way to LOST. -/
theorem unstableBad_spec (p : LockParams) (unstable : r.state = .unstable) :
    let r' := unstableBad p r
    r'.goodRun = 0 ∧ r'.candidate = r.candidate ∧ r'.standard = r.standard
    ∧ (p.unstableLimit ≤ r.badRun + 1 → r'.state = .lost ∧ r'.badRun = 0)
    ∧ (r.badRun + 1 < p.unstableLimit → r'.state = .unstable ∧ r'.badRun = r.badRun + 1) := by
  unfold unstableBad
  split
  · next long =>
      exact ⟨rfl, rfl, rfl, fun _ => ⟨rfl, rfl⟩, fun short => absurd long (Nat.not_le.2 short)⟩
  · next short => exact ⟨rfl, rfl, rfl, fun long => absurd long short, fun _ => ⟨unstable, rfl⟩⟩

end

/-! ### The notice of a change (R73) -/

theorem changeSource_frame (s : State) (i : SourceId) (r : SourceRecord) :
    s.changeSource i r = { s with
      port := (s.changeSource i r).port, sources := s.sources.set i r
      notices := (s.changeSource i r).notices } := by
  unfold State.changeSource
  split <;> rfl

theorem changeSource_setPage_page (s : State) (i : SourceId) (t : PageTable) (r : SourceRecord) :
    ((s.setPage i t).changeSource i r).page i = t := by
  rw [State.page, changeSource_pages]
  exact Table.get_set_same ..

theorem heard_changeSource (s : State) (i : SourceId) (r : SourceRecord) :
    State.Heard s (s.changeSource i r) := by
  unfold State.changeSource
  split
  · exact State.heard_of_same rfl rfl
  · exact (State.heard_of_same rfl rfl).raise _ _

theorem changeSource_notice (s : State) (i : SourceId) (r : SourceRecord) :
    (s.changeSource i r).notices.get (.sourceState i) =
      if r.state = (s.source i).state then s.notices.get (.sourceState i) else some (.state r.state) := by
  unfold State.changeSource
  split
  · rfl
  · exact NoticeSet.get_put_same s.notices (.sourceState i) _

theorem changeSource_notice_other (s : State) (i : SourceId) (r : SourceRecord) {k : NoticeKey}
    (other : k ≠ .sourceState i) : (s.changeSource i r).notices.get k = s.notices.get k := by
  unfold State.changeSource
  split
  · rfl
  · exact NoticeSet.get_put_other s.notices _ other

/-! ### A field ends (R66) -/

theorem fillField_restartTimer (i : SourceId) (top : Bool) (k : Nat) (s : State) :
    (fillField i top k (restartTimer i s)).store = (fillField i top k s).store := by
  unfold fillField
  rw [restartTimer_source]
  cases writer : (s.page i).writer with
  | none => rw [show ((restartTimer i s).page i).writer = none from writer]; rfl
  | some w => rw [show ((restartTimer i s).page i).writer = some w from writer]; rfl

/-- R65, R66, R73: the end of field `f` of source `i` takes `s` to `t`, whose record of the source is `r`. -/
structure FieldEnds (i : SourceId) (f : FieldInProgress) (s : State) (r : SourceRecord) (t : State) :
    Prop where
  frame : t = { s with
    port := t.port, sources := s.sources.set i r, pages := s.pages.set i (t.page i)
    store := t.store, notices := t.notices }
  pages : t.page i = (s.page i).fieldEnd (s.source i).state r.state
    (isTop (s.source i) f.bit) (goodField (s.source i) f)
  store : t.store = (fillField i (isTop (s.source i) f.bit) f.lines s).store
  heard : State.Heard s t
  notice : t.notices.get (.sourceState i) =
    if r.state = (s.source i).state then s.notices.get (.sourceState i) else some (.state r.state)
  others : ∀ k, k ≠ .sourceState i → t.notices.get k = s.notices.get k

namespace FieldEnds
variable {i : SourceId} {f : FieldInProgress} {s t : State} {r : SourceRecord}

theorem record (ends : FieldEnds i f s r t) : t.source i = r := by
  rw [State.source, ends.frame]
  exact Table.get_set_same ..

/-- The end of a field is told by the state of the record it leaves, whatever the stream then does to it. -/
theorem setSource (ends : FieldEnds i f s r t) {r' : SourceRecord} (state : r'.state = r.state) :
    FieldEnds i f s r' (t.setSource i r') := by
  obtain ⟨frame, pages, store, heard, notice, others⟩ := ends
  refine ⟨?_, state ▸ pages, store, heard.congr rfl rfl, state ▸ notice, others⟩
  refine (congrArg (State.setSource · i r') frame).trans ?_
  simp only [State.setSource, Table.set_set]
  rfl

/-- The loss timer begun anew before it is no part of the end of a field. -/
theorem of_restart (ends : FieldEnds i f (restartTimer i s) r t) : FieldEnds i f s r t := by
  obtain ⟨frame, pages, store, heard, notice, others⟩ := ends
  rw [restartTimer_source] at pages store notice
  refine ⟨?_, pages, store.trans (fillField_restartTimer ..), (State.heard_of_same rfl rfl).trans heard,
    notice, others⟩
  refine frame.trans ?_
  simp only [restartTimer, State.setSource, Table.set_set]

end FieldEnds

theorem fieldEnd_ends {i : SourceId} {f : FieldInProgress} {s : State}
    (field : (s.source i).field = some f) :
    FieldEnds i f s ((s.source i).judged s.params f) (fieldEnd i s) := by
  rw [fieldEnd_some field]
  exact {
    frame := (changeSource_frame ..).trans (by rw [changeSource_setPage_page, changeSource_store]; rfl)
    pages := changeSource_setPage_page ..
    store := changeSource_store ..
    heard := (State.heard_of_same rfl rfl).trans (heard_changeSource ..)
    notice := changeSource_notice ..
    others := fun k other => changeSource_notice_other _ _ _ other }

/-- R67: the record after field `f` has been judged, at the code that ends it. -/
def SourceRecord.afterField (r : SourceRecord) (p : LockParams) (f : FieldInProgress) : SourceRecord :=
  { (r.restarted p).judged p f with sawBlank := true }

/-- R63, R66: the code with the vertical-blank flag, where no line is open, ends the field. -/
theorem timingCode_endsField {p : PortId} {flags : Byte} {bytes : List Byte} {i : SourceId}
    {f : FieldInProgress} {s : State} (owns : s.owner p = some i) (free : codeFree bytes = true)
    (blank : flags.getLsbD 5 = true) (closed : (s.source i).lineOpen = false)
    (field : (s.source i).field = some f) :
    ∃ t, exec (.timingCode p flags bytes) s = .next t
      ∧ FieldEnds i f s ((s.source i).afterField s.params f) t := by
  have field' : ((restartTimer i s).source i).field = some f := by
    rw [restartTimer_source]
    exact field
  have ends := fieldEnd_ends field'
  refine ⟨_, timingCode_closed owns free closed flags, ?_⟩
  rw [actOnCode_blank blank, blankCode, ends.record]
  rw [restartTimer_source] at ends ⊢
  exact ends.of_restart.setSource rfl

/-- Settles O25, row by row of table 4-2. -/
theorem fieldVerdictMovesTheLockState : Obligations.FieldVerdictMovesTheLockState := by
  intro p flags bytes i f s owns free blank closed field
  obtain ⟨t, run, ends⟩ := timingCode_endsField owns free blank closed field
  obtain ⟨port, noticed, -⟩ := ends.heard
  have record := ends.record
  refine ⟨t, run, record ▸ ends.frame, ⟨measured_s525, measured_s625, ?_, ?_, ?_, ?_, ?_, ?_, ?_, ?_, ?_⟩,
    noticed, port, ends.others, record ▸ ends.notice⟩
  all_goals rw [record, SourceRecord.afterField]
  · rw [SourceRecord.judged_frame]
    rfl
  · intro searching good
    have was : ((s.source i).restarted s.params).state = .searching := searching
    rw [judged_searching_good was good]
    exact searchingGood_spec s.params was (measured f.lines)
  · intro searching bad
    have was : ((s.source i).restarted s.params).state = .searching := searching
    rw [judged_searching_bad was bad]
    exact ⟨rfl, rfl, rfl, rfl, searching⟩
  · intro locked good
    have was : ((s.source i).restarted s.params).state = .locked := locked
    rw [judged_locked_good was good]
    exact ⟨rfl, rfl, rfl, rfl, locked⟩
  · intro locked bad
    have was : ((s.source i).restarted s.params).state = .locked := locked
    rw [judged_locked_bad was bad]
    exact ⟨rfl, rfl, rfl, rfl, rfl⟩
  · intro unstable good
    have was : ((s.source i).restarted s.params).state = .unstable := unstable
    rw [judged_unstable_good was good]
    exact unstableGood_spec s.params was
  · intro unstable bad
    have was : ((s.source i).restarted s.params).state = .unstable := unstable
    rw [judged_unstable_bad was bad]
    exact unstableBad_spec s.params was
  · intro lost good
    have was : ((s.source i).restarted s.params).state = .lost := lost
    rw [judged_lost_good was good]
    exact ⟨rfl, rfl, rfl, rfl, rfl⟩
  · intro lost bad
    have was : ((s.source i).restarted s.params).state = .lost := lost
    rw [judged_lost_bad was bad]
    exact ⟨rfl, rfl, rfl, rfl, lost⟩

end Sys2Proof.Machine
end

section
/-! PROOF. The page table and the stored lines at the end of a field (O26). -/

namespace Sys2Proof.Machine

/-! ### The page table (R79, R80, R82 to R85) -/

theorem writes_iff {st : SourceState} : writes st = true ↔ Written st := by
  cases st <;> simp [writes, Written]

theorem not_written_searching : ¬ Written .searching := fun written => written.elim nofun nofun

theorem heightsEnded_some {t : PageTable} {w : Writer} (writer : t.writer = some w) :
    heightsEnded t = t.heights.set w.page w.height := by
  rw [heightsEnded, writer]

/-- A table without a writer. -/
theorem PageTable.writerless_eq {t : PageTable} (free : t.writer = none) : { t with writer := none } = t := by
  obtain ⟨newest, writer, heights, count⟩ := t
  cases free
  rfl

section
variable {t : PageTable} {before after : SourceState} {top good : Bool} {w : Writer}

/-- R84: a source that leaves LOCKED and UNSTABLE abandons its writer. -/
theorem pageEnd_left (left : ¬ Written after) : t.fieldEnd before after top good = t.abandoned := by
  have silent : writes after = false := Bool.eq_false_iff.2 fun writing => left (writes_iff.1 writing)
  rw [PageTable.fieldEnd, silent]
  rfl

theorem pageEnd_stays (stays : Written after) (entered : ¬ (before = .searching ∧ after = .locked)) :
    t.fieldEnd before after top good = if top then t.topEnd good else t.bottomEnd good := by
  rw [PageTable.fieldEnd, writes_iff.2 stays, if_neg entered]
  rfl

theorem topEnd_none (free : t.writer = none) : t.topEnd good = t := by
  rw [PageTable.topEnd, free]
  exact PageTable.writerless_eq free

theorem bottomEnd_none (free : t.writer = none) : t.bottomEnd good = t := by
  rw [PageTable.bottomEnd, free]

/-- R85: a source that locks forgets its newest page. -/
theorem pageEnd_locks (free : t.writer = none) :
    t.fieldEnd .searching .locked top good = { t with newest := none } := by
  cases top with
  | false => exact bottomEnd_none (t := t.cleared) free
  | true => exact topEnd_none (t := t.cleared) free

/-- R82. -/
theorem topEnd_some (writer : t.writer = some w) :
    t.topEnd good = { t with writer := some { w with top := some good } } := by
  rw [PageTable.topEnd, writer]
  rfl

/-- R83: both fields are good. -/
theorem bottomEnd_completes (writer : t.writer = some w) (both : w.top = some true ∧ good = true) :
    t.bottomEnd good = { newest := some w.page, writer := none
                         heights := t.heights.set w.page w.height, count := t.count + 1 } := by
  rw [PageTable.bottomEnd, writer, abandoned_eq, heightsEnded_some writer]
  exact if_pos both

/-- R83: a field is bad. -/
theorem bottomEnd_discards (writer : t.writer = some w) (bad : ¬ (w.top = some true ∧ good = true)) :
    t.bottomEnd good = { t with writer := none, heights := t.heights.set w.page w.height } := by
  rw [PageTable.bottomEnd, writer, abandoned_eq, heightsEnded_some writer]
  exact if_neg bad

end

/-- R69, R70: a verdict takes a SEARCHING source nowhere but to LOCKED. -/
theorem judged_from_searching {p : LockParams} {r : SourceRecord} {f : FieldInProgress}
    (searching : r.state = .searching) :
    (r.judged p f).state = .searching ∨ (r.judged p f).state = .locked := by
  by_cases good : FieldGood r f
  · obtain ⟨-, -, locks, stays⟩ := searchingGood_spec p searching (measured f.lines)
    rw [judged_searching_good searching good]
    rcases Nat.lt_or_ge (searchingGood p r (measured f.lines)).goodRun p.lockCount with short | long
    · exact .inl (stays short).1
    · exact .inr (locks long).1
  · rw [judged_searching_bad searching good]
    exact .inl searching

theorem isTop_iff {r : SourceRecord} {bit : Bool} : isTop r bit = true ↔ bit = r.fieldSwap := decide_eq_true_iff

/-! ### The black of the lines that did not come (R82) -/

theorem frameLine_isTop (r : SourceRecord) (bit : Bool) (n : Nat) :
    frameLine (isTop r bit) n = 2 * n + if bit = r.fieldSwap then 0 else 1 := by
  unfold frameLine
  simp only [isTop_iff]
  split <;> rfl

theorem lineAddress_even (i : SourceId) (p : PageId) (line : Nat) : lineAddress i p line % 2 = 0 := by
  unfold lineAddress pageBase Config.pageBytes Config.lineBytes
  omega

theorem fillField_none {i : SourceId} {s : State} (free : (s.page i).writer = none) (top : Bool) (k : Nat) :
    fillField i top k s = s := by
  rw [fillField, free]

/-- R82: the stored lines that a field of `k` active lines leaves out. -/
def linesLeftOut (k vStart height : Nat) : List Nat :=
  List.range' (k - vStart) (height / 2 - (k - vStart))

theorem mem_linesLeftOut {k vStart height n : Nat} :
    n ∈ linesLeftOut k vStart height ↔ n < height / 2 ∧ k ≤ n + vStart := by
  rw [linesLeftOut, List.mem_range'_1]
  omega

section
variable {i : SourceId} {s : State} {w : Writer}

theorem fillField_some (writer : (s.page i).writer = some w) (top : Bool) (k : Nat) :
    (fillField i top k s).store = (linesLeftOut k (s.source i).vStart w.height).foldl (fun m n =>
      Memory.writeBytes m (lineAddress i w.page (frameLine top n)) (blackBytes Config.lineBytes)) s.store := by
  rw [fillField, writer]
  rfl

variable (ok : s.StoreOk) (writer : (s.page i).writer = some w) {top : Bool} {k : Nat}
include ok writer

theorem read_fillField_black {n j : Nat} (place : n < w.height / 2) (missing : k ≤ n + (s.source i).vStart)
    (inside : j < 1440) :
    Memory.read (fillField i top k s).store (lineAddress i w.page (frameLine top n) + j)
      = if j % 2 = 0 then 128 else 16 := by
  have even := lineAddress_even i w.page (frameLine top n)
  rw [fillField_some writer, read_blackLines ok (fun n => lineAddress i w.page (frameLine top n))
    (fun n => lineAddress_even ..), if_pos ⟨n, mem_linesLeftOut.2 ⟨place, missing⟩, by omega, by omega⟩,
    show (lineAddress i w.page (frameLine top n) + j) % 2 = j % 2 by omega]

theorem read_fillField_elsewhere {b : Nat} (outside : ∀ n, n < w.height / 2 → k ≤ n + (s.source i).vStart →
      b < lineAddress i w.page (frameLine top n) ∨ lineAddress i w.page (frameLine top n) + 1440 ≤ b) :
    Memory.read (fillField i top k s).store b = Memory.read s.store b := by
  rw [fillField_some writer, read_blackLines ok (fun n => lineAddress i w.page (frameLine top n))
    (fun n => lineAddress_even ..), if_neg]
  rintro ⟨n, left_out, inside⟩
  obtain ⟨place, missing⟩ := mem_linesLeftOut.1 left_out
  have := outside n place missing
  omega

end

/-- Settles O26: the page table by the state before and after and the writer, then the stored lines. -/
theorem pageTableAtFieldEnd : Obligations.PageTableAtFieldEnd := by
  intro p flags bytes i f s t owns free blank closed field run
  obtain ⟨t', run', ends⟩ := timingCode_endsField owns free blank closed field
  cases run'.symm.trans run
  rw [ends.record, ends.pages, ends.store]
  have locks (searching : (s.source i).state = .searching) :
      ((s.source i).afterField s.params f).state = .searching
        ∨ ((s.source i).afterField s.params f).state = .locked := judged_from_searching searching
  generalize ((s.source i).afterField s.params f).state = after at locks
  have entered (was : Written (s.source i).state) : ¬ ((s.source i).state = .searching ∧ after = .locked) :=
    fun ⟨searching, _⟩ => not_written_searching (searching ▸ was)
  refine ⟨fun left => ?_, fun stays searching free => ?_, fun stays was free => ?_,
    fun stays was w writer => ?_, fun free => ?_, fun ok w writer => ?_⟩
  · rw [pageEnd_left left, abandoned_eq]
  · have locked : after = .locked := (locks searching).resolve_left fun still =>
      not_written_searching (still ▸ stays)
    rw [searching, locked, pageEnd_locks free]
  · rw [pageEnd_stays stays (entered was), topEnd_none free, bottomEnd_none free, ite_self]
  · rw [pageEnd_stays stays (entered was), ← goodField_iff]
    refine ⟨fun top => ?_, fun bottom best good => ?_, fun bottom bad => ?_⟩
    · rw [if_pos (isTop_iff.2 top), topEnd_some writer]
      exact ⟨_, .rfl, rfl⟩
    · rw [if_neg (mt isTop_iff.1 bottom), bottomEnd_completes writer ⟨best, good⟩]
    · rw [if_neg (mt isTop_iff.1 bottom), bottomEnd_discards writer bad]
  · rw [fillField_none free]
  · simp only [← frameLine_isTop]
    exact ⟨fun n k place missing inside => read_fillField_black ok writer place missing inside,
      fun b outside => read_fillField_elsewhere ok writer outside⟩

end Sys2Proof.Machine
end

section
/-! PROOF. The start of a field, the begin of a line and the codes that do neither (O27). -/

namespace Sys2Proof.Machine

/-! ### The writer of a top field (R81) -/

section
variable {i : SourceId} {s : State}

/-- R81: the lowest-numbered page that is neither newest nor held. -/
theorem choosePage_first {q : PageId} (fresh : (s.page i).newest ≠ some q)
    (free : ∀ hd, s.holds hd i q = false)
    (lowest : ∀ q', q' < q → (s.page i).newest = some q' ∨ ∃ hd, s.holds hd i q' = true) :
    s.choosePage i = some q := by
  refine find?_finRange_first ?_ fun q' lower => ?_
  · simp [State.choosable, fresh, free]
  · rcases lowest q' lower with newest | ⟨hd, held⟩
    · simp [State.choosable, newest]
    · cases hd <;> simp [State.choosable, held]

theorem writerHeight_eq (std : Option Standard) :
    writerHeight std = if std = some .s625 then 576 else 480 := by
  rcases std with _ | _ | _ <;> rfl

theorem topFieldStart_page (i : SourceId) (s : State) :
    topFieldStart i s = s.setPage i ((topFieldStart i s).page i) := by
  unfold topFieldStart
  dsimp only
  split
  all_goals rw [State.setPage_page_same]

theorem topFieldStart_silent (silent : ¬ Written (s.source i).state) :
    (topFieldStart i s).page i = (s.page i).abandoned := by
  unfold topFieldStart
  dsimp only
  rw [if_neg (mt writes_iff.1 silent), State.setPage_page_same]

theorem topFieldStart_writes {q : PageId} (written : Written (s.source i).state)
    (chosen : s.choosePage i = some q) : (topFieldStart i s).page i = { (s.page i).abandoned with
      writer := some { page := q, height := writerHeight (s.source i).standard, top := none } } := by
  unfold topFieldStart
  dsimp only
  rw [if_pos (writes_iff.2 written), State.setPage_page_same, chosen]
  rfl

end

/-! ### The code that begins a line (R63) -/

section
variable {i : SourceId} {s : State} {bit : Bool}

/-- R63, R67: the part with the first line of a field open, before a top field reaches the page table. -/
def beginField (i : SourceId) (bit : Bool) (s : State) : State :=
  s.setSource i (((s.source i).restarted s.params).begun bit)

theorem beginField_source : (beginField i bit s).source i
    = ((s.source i).restarted s.params).begun bit := State.setSource_source_same ..

theorem openLine_beginField (blank : (s.source i).sawBlank = true) (idle : (s.source i).field = none) :
    openLine i bit (restartTimer i s) =
      if isTop (s.source i) bit then topFieldStart i (beginField i bit s) else beginField i bit s := by
  have timed := restartTimer_source i s
  rw [openLine_begins (by rw [timed]; exact blank) (by rw [timed]; exact idle), timed]
  simp only [restartTimer, State.setSource_twice]
  rfl

end

/-- Settles O27: the start of a field, bottom and top, then the other codes where no line is open. -/
theorem fieldStartBeginsAWriter : Obligations.FieldStartBeginsAWriter := by
  intro p flags bytes s
  refine ⟨fun unowned => timingCode_unowned unowned flags bytes, fun i owns free closed => ?_⟩
  rw [timingCode_closed owns free closed]
  have timed := restartTimer_source i s
  refine ⟨fun active start blank idle => ?_, fun active start within => ?_, fun active final => ?_,
    fun blank idle => ?_⟩
  · rw [actOnCode_start active start, openLine_beginField blank idle]
    have began := beginField_source (i := i) (bit := flags.getLsbD 6) (s := s)
    by_cases top : flags.getLsbD 6 = (s.source i).fieldSwap
    · rw [if_pos (isTop_iff.2 top)]
      refine ⟨_, rfl, topFieldStart_page .., fun bottom => absurd top bottom, fun _ silent => ?_,
        fun _ written q fresh unheld lowest => ?_⟩
      · rw [topFieldStart_silent (by rw [began]; exact silent), abandoned_eq]
        rfl
      · have chosen : (beginField i (flags.getLsbD 6) s).choosePage i = some q :=
          choosePage_first (s := s) fresh unheld lowest
        rw [topFieldStart_writes (by rw [began]; exact written) chosen, abandoned_eq, began, writerHeight_eq]
        rfl
    · rw [if_neg (mt isTop_iff.1 top)]
      refine ⟨_, rfl, ?_, fun _ => rfl, fun top' => absurd top' top, fun top' => absurd top' top⟩
      rw [show (beginField i (flags.getLsbD 6) s).page i = s.pages.get i from rfl, Table.set_get]
      rfl
  · rw [actOnCode_start active start, openLine_within (by rw [timed]; exact within), timed, restartTimer,
      State.setSource_twice]
    rfl
  · rw [actOnCode_final active final]
    rfl
  · rw [actOnCode_blank blank, blankCode, fieldEnd_none (by rw [timed]; exact idle), timed, restartTimer,
      State.setSource_twice]
    rfl

end Sys2Proof.Machine
end

section
/-! PROOF. The close of an active line (O28): where its bytes go, and the 291st line of a field. -/

namespace Sys2Proof.Machine

/-! ### The bytes of a line (R64) -/

theorem placedBytes_length (hStart : Nat) (bytes : List Byte) :
    (placedBytes hStart bytes).length = min 1440 bytes.length - 2 * hStart := by
  rw [placedBytes, List.length_drop, List.length_take]
  rfl

theorem placedBytes_get {hStart k : Nat} {bytes : List Byte} (inside : k + 2 * hStart < 1440) :
    (placedBytes hStart bytes).getD k 0 = bytes.getD (k + 2 * hStart) 0 := by
  have inside' : 2 * hStart + k < Config.lineBytes := by rwa [Nat.add_comm]
  rw [placedBytes, List.getD_eq_getElem?_getD, List.getElem?_drop, List.getElem?_take_of_lt inside',
    ← List.getD_eq_getElem?_getD, Nat.add_comm]

section
variable {m : Memory} (wf : Memory.wf m = true) (a : Nat) {hStart : Nat} (starts : hStart ≤ 16)
  (bytes : List Byte)
include wf starts

/-- R64: what a byte reads as once a line is stored: the black at its end, the bytes placed, or as before. -/
theorem read_storeLine (x : Nat) : Memory.read (storeLine m a hStart bytes) x =
    if a + 1440 - 2 * hStart ≤ x ∧ x < a + 1440 then (if (x - a) % 2 = 0 then 128 else 16)
    else if a ≤ x ∧ x < a + (placedBytes hStart bytes).length then (placedBytes hStart bytes).getD (x - a) 0
    else Memory.read m x := by
  rw [storeLine, Memory.read_writeBytes (Memory.wf_writeBytes wf ..), Memory.read_writeBytes wf,
    blackBytes_length, blackBytes_eq, Config.lineBytes]
  have last : a + 1440 - 2 * hStart + 2 * hStart = a + 1440 := by omega
  rw [last]
  by_cases black : a + 1440 - 2 * hStart ≤ x ∧ x < a + 1440
  · rw [if_pos black, if_pos black, if_pos (by omega),
      show (x - (a + 1440 - 2 * hStart)) % 2 = (x - a) % 2 by omega]
  · rw [if_neg black, if_neg black]

theorem read_storeLine_elsewhere {b : Nat} (outside : b < a ∨ a + 1440 ≤ b) :
    Memory.read (storeLine m a hStart bytes) b = Memory.read m b := by
  have length := placedBytes_length hStart bytes
  rw [read_storeLine wf a starts, if_neg (by omega), if_neg (by omega)]

theorem read_storeLine_whole (whole : bytes.length = 1440) {k : Nat} (inside : k < 1440) :
    Memory.read (storeLine m a hStart bytes) (a + k) =
      if k + 2 * hStart < 1440 then bytes.getD (k + 2 * hStart) 0 else if k % 2 = 0 then 128 else 16 := by
  have length := placedBytes_length hStart bytes
  rw [whole] at length
  rw [read_storeLine wf a starts, Nat.add_sub_cancel_left]
  by_cases placed : k + 2 * hStart < 1440
  · rw [if_neg (by omega), if_pos (by omega), if_pos placed, placedBytes_get placed]
  · rw [if_pos (by omega), if_neg placed]

end

/-! ### The place of a line (R64, R82) -/

section
variable {i : SourceId} {s : State} {w : Writer} {k : Nat}

theorem storeActiveLine_placed (writer : (s.page i).writer = some w) (place : (s.source i).vStart ≤ k
      ∧ k - (s.source i).vStart < w.height / 2) (top : Bool) (bytes : List Byte) :
    (storeActiveLine i top k bytes s).store = storeLine s.store
      (lineAddress i w.page (frameLine top (k - (s.source i).vStart))) (s.source i).hStart bytes := by
  unfold storeActiveLine
  rw [writer]
  dsimp only
  rw [if_pos place]
  rfl

theorem storeActiveLine_nowhere (nowhere : ∀ w, (s.page i).writer = some w →
      k < (s.source i).vStart ∨ w.height / 2 ≤ k - (s.source i).vStart) (top : Bool) (bytes : List Byte) :
    (storeActiveLine i top k bytes s).store = s.store := by
  unfold storeActiveLine
  cases writer : (s.page i).writer with
  | none => rfl
  | some w =>
      have outside : ¬ ((s.source i).vStart ≤ k ∧ k - (s.source i).vStart < w.height / 2) := by
        have := nowhere w writer
        omega
      dsimp only
      rw [if_neg outside]

theorem storeActiveLine_restartTimer (i : SourceId) (top : Bool) (k : Nat) (bytes : List Byte) (s : State) :
    (storeActiveLine i top k bytes (restartTimer i s)).store = (storeActiveLine i top k bytes s).store := by
  have timed := restartTimer_source i s
  by_cases place : ∃ w, (s.page i).writer = some w ∧ (s.source i).vStart ≤ k
      ∧ k - (s.source i).vStart < w.height / 2
  · obtain ⟨w, writer, place⟩ := place
    rw [storeActiveLine_placed writer place, storeActiveLine_placed (s := restartTimer i s) writer (by
      rw [timed]; exact place), timed]
    rfl
  · have nowhere (w : Writer) (writer : (s.page i).writer = some w) :
        k < (s.source i).vStart ∨ w.height / 2 ≤ k - (s.source i).vStart := by
      by_contra inside
      exact place ⟨w, writer, by omega⟩
    rw [storeActiveLine_nowhere nowhere, storeActiveLine_nowhere (s := restartTimer i s) (by
      rw [timed]; exact nowhere)]
    rfl

end

/-! ### The line counted, and the loss timer (R62, R67) -/

theorem restartTimer_setSource (i : SourceId) (r : SourceRecord) (s : State) :
    restartTimer i (s.setSource i r) = s.setSource i (r.restarted s.params) := by
  rw [restartTimer, State.setSource_source_same, State.setSource_twice]
  rfl

/-- R63: the record of a source with one more line of field `f`. -/
def SourceRecord.counted (r : SourceRecord) (f : FieldInProgress) (ok : Bool) : SourceRecord :=
  { r with lineOpen := false, field := some (f.counted ok) }

theorem countLine_eq (i : SourceId) (f : FieldInProgress) (final : Bool) (bytes : List Byte) (s : State) :
    countLine i f final bytes s =
      (s.setStore (storeActiveLine i (isTop (s.source i) f.bit) f.lines bytes s).store).setSource i
        ((s.source i).counted f (final && bytes.length = Config.lineBytes)) := by
  rw [countLine, storeActiveLine_eq]
  rfl

theorem countLine_restartTimer (i : SourceId) (f : FieldInProgress) (final : Bool) (bytes : List Byte)
    (s : State) :
    countLine i f final bytes (restartTimer i s) = restartTimer i (countLine i f final bytes s) := by
  rw [countLine_eq, countLine_eq, restartTimer_setSource, restartTimer_source]
  have stored := storeActiveLine_restartTimer i (isTop (s.source i) f.bit) f.lines bytes s
  refine (congrArg (fun m => ((restartTimer i s).setStore m).setSource i _) stored).trans ?_
  generalize (storeActiveLine i _ f.lines bytes s).store = m
  simp only [restartTimer, State.setSource, State.setStore, Table.set_set]
  rfl

theorem countLine_ownersKept (i : SourceId) (f : FieldInProgress) (final : Bool) (bytes : List Byte)
    (s : State) : OwnersKept s (countLine i f final bytes s) := by
  rw [countLine_eq]
  have stored (m : Memory) : OwnersKept s (s.setStore m) := .of_sources rfl
  exact (stored _).trans (.setSource i ⟨rfl, .rfl⟩)

/-- R67: a field that ends keeps the loss timer begun at its last code. -/
theorem restartTimer_fieldEnd {i : SourceId} {f : FieldInProgress} {s : State}
    (field : (s.source i).field = some f) :
    restartTimer i (fieldEnd i (restartTimer i s)) = fieldEnd i (restartTimer i s) := by
  have timed := restartTimer_source i s
  have ends := fieldEnd_ends (timed ▸ field : ((restartTimer i s).source i).field = some f)
  have params : (fieldEnd i (restartTimer i s)).params = s.params :=
    (congrArg State.params ends.frame).trans rfl
  have timer : ((fieldEnd i (restartTimer i s)).source i).restarted s.params
      = (fieldEnd i (restartTimer i s)).source i := by
    rw [ends.record, timed, SourceRecord.judged_frame]
    rfl
  rw [restartTimer, params, timer, State.setSource_self]

theorem fieldEnd_lineOpen {i : SourceId} {f : FieldInProgress} {s : State}
    (field : (s.source i).field = some f) :
    ((fieldEnd i s).source i).lineOpen = (s.source i).lineOpen := by
  rw [(fieldEnd_ends field).record, SourceRecord.judged_frame]

theorem fieldEnd_sawBlank {i : SourceId} {f : FieldInProgress} {s : State}
    (field : (s.source i).field = some f) :
    ((fieldEnd i s).source i).sawBlank = (s.source i).sawBlank := by
  rw [(fieldEnd_ends field).record, SourceRecord.judged_frame]

/-! ### A code that closes a line -/

section
variable {p : PortId} {flags : Byte} {bytes : List Byte} {i : SourceId} {s : State}
  (owns : s.owner p = some i) (free : codeFree bytes = true) (opened : (s.source i).lineOpen = true)
include owns free opened

/-- R62: a line in no field is closed alone. -/
theorem timingCode_lineApart (idle : (s.source i).field = none) : exec (.timingCode p flags bytes) s
    = exec (.timingCode p flags []) (s.setSource i { s.source i with lineOpen := false }) := by
  have timed := restartTimer_source i s
  have kept : OwnersKept s (s.setSource i { s.source i with lineOpen := false }) := .setSource i ⟨rfl, .rfl⟩
  have owns' := (kept.owner_eq p).trans owns
  rw [timingCode_one owns free, timingCode_closed owns' rfl (by rw [State.setSource_source_same]),
    closeLine_apart (by rw [timed]; exact opened) (by rw [timed]; exact idle), timed,
    restartTimer_setSource, restartTimer, State.setSource_twice]
  rfl

variable {f : FieldInProgress} (field : (s.source i).field = some f)
include field

/-- R63: the line is stored and counted, and the 291st ends its field; then the code acts. -/
theorem timingCode_lineOfField : exec (.timingCode p flags bytes) s = .next (actOnCode i flags
    (if 290 ≤ f.lines then fieldEnd i (restartTimer i (countLine i f (endFlag flags) bytes s))
      else restartTimer i (countLine i f (endFlag flags) bytes s))) := by
  have timed := restartTimer_source i s
  rw [timingCode_one owns free, closeLine_some (by rw [timed]; exact opened) (by rw [timed]; exact field),
    countLine_restartTimer]

end

/-- R63: the 291st line ends the field as a code with the vertical-blank flag does, but for the field start
that such a code arms. -/
theorem forcedEnd_eq {p : PortId} {g : Byte} {i : SourceId} {f : FieldInProgress} {u v : State}
    (owns : u.owner p = some i) (closed : (u.source i).lineOpen = false)
    (field : (u.source i).field = some f) (blank : g.getLsbD 5 = true)
    (ended : exec (.timingCode p g []) u = .next v) :
    v.setSource i { v.source i with sawBlank := (u.source i).sawBlank } = fieldEnd i (restartTimer i u) := by
  have timed := restartTimer_source i u
  have kept := fieldEnd_sawBlank (timed ▸ field : ((restartTimer i u).source i).field = some f)
  rw [timed] at kept
  have same : (u.source i).sawBlank = ((fieldEnd i (restartTimer i u)).source i).sawBlank := kept.symm
  rw [timingCode_closed owns rfl closed, actOnCode_blank blank] at ended
  cases ended
  rw [same, blankCode, State.setSource_source_same, State.setSource_twice]
  exact State.setSource_self ..

/-- Settles O28: the line stored, then the code after a line of the field and after its 291st. -/
theorem activeLineStoredAtItsPlace : Obligations.ActiveLineStoredAtItsPlace := by
  intro p flags bytes i s ok sources owns free opened
  refine ⟨timingCode_lineApart owns free opened, fun f field => ?_⟩
  have run := timingCode_lineOfField (flags := flags) owns free opened field
  have frame := countLine_eq i f (endFlag flags) bytes s
  have owns' := ((countLine_ownersKept i f (endFlag flags) bytes s).owner_eq p).trans owns
  generalize countLine i f (endFlag flags) bytes s = u at *
  have store := congrArg State.store frame
  have params : u.params = s.params := (congrArg State.params frame).trans rfl
  have counted : u.source i
      = (s.source i).counted f (endFlag flags && bytes.length = Config.lineBytes) := by
    rw [frame]
    exact State.setSource_source_same ..
  have closed : (u.source i).lineOpen = false := by rw [counted]; rfl
  have field' := congrArg SourceRecord.field counted
  refine ⟨u, ?_, fun w writer from_start in_page => ?_, fun nowhere => ?_, fun more => ?_,
    fun last g v blank ended => ?_⟩
  · rw [Bool.and_assoc, store]
    exact frame
  · have starts := ((State.sourcesOk_iff.1 sources).1 i).starts.1
    have placed := store.trans (storeActiveLine_placed writer ⟨from_start, in_page⟩ ..)
    rw [frameLine_isTop] at placed
    rw [placed]
    exact ⟨fun b outside => read_storeLine_elsewhere ok _ starts bytes outside,
      fun whole k inside => read_storeLine_whole ok _ starts bytes whole inside⟩
  · rw [store]
    exact storeActiveLine_nowhere nowhere ..
  · rw [run, if_neg (Nat.not_le.2 more), timingCode_closed owns' rfl closed]
    refine ⟨rfl, fun active final => ?_⟩
    rw [actOnCode_final active final, restartTimer, params]
    rfl
  · have forced := forcedEnd_eq owns' closed field' blank ended
    have timed : OwnersKept u (restartTimer i u) := .setSource i ⟨rfl, .rfl⟩
    have owns'' := ((timed.trans (.fieldEnd i _)).owner_eq p).trans owns'
    have closed' : ((fieldEnd i (restartTimer i u)).source i).lineOpen = false := by
      rw [fieldEnd_lineOpen (by rw [restartTimer_source]; exact field'), restartTimer_source]
      exact closed
    rw [counted] at forced
    refine Eq.trans ?_ (congrArg (exec (.timingCode p flags [])) forced.symm)
    rw [run, if_pos last, timingCode_closed owns'' rfl closed', restartTimer_fieldEnd field']

end Sys2Proof.Machine
end

section
/-! PROOF. The millisecond of an empty queue (O2): the count-down record by record, then the samples of the
lines. -/

namespace Sys2Proof.Machine

theorem step_empty {s : State} (empty : s.pending = []) : step s = .next (tick s) := by
  unfold step
  rw [empty]

/-! ### The count-down (R67, R106, R117, R136) -/

theorem countDown_line (s : State) (l : LineId) : (countDown s).line l = (s.line l).tick :=
  Table.get_map ..

theorem countDown_list (s : State) (h : Head) (slot : SlotId) :
    (countDown s).list h slot = (s.list h slot).map Entry.tick := by
  cases h with
  | a => exact Table.get_map ..
  | b => exact Table.get_map ..

theorem countDown_runtime (s : State) (h : Head) (slot : SlotId) :
    (countDown s).runtime h slot = s.tickRuntime h slot := by
  cases h with
  | a => exact Table.get_ofFn ..
  | b => exact Table.get_ofFn ..

/-- R106: the dwell counts. -/
theorem counting_iff {s : State} {h : Head} {slot : SlotId} {r : Runtime} : s.counting h slot r = true ↔
    r.state = .running ∧ (s.head h).state ≠ .stopped ∧ s.list h slot = [] := by
  simp [State.counting, and_assoc]

/-! ### The samples (R116) -/

/-- R116: the millisecond ends without an event where no pin has moved. -/
theorem tick_quiet {s : State} (quiet : ∀ l, (s.line l).pinHigh = (s.line l).rawHigh) :
    tick s = { countDown s with lines := (tick s).lines }
    ∧ ∀ l, (tick s).line l = { (countDown s).line l with sampled := false } := by
  obtain ⟨frame, lines⟩ := millisecond_quiet (List.finRange 16) (countDown s) fun l => by
    rw [countDown_line]
    exact quiet l
  exact ⟨frame, fun l => (lines l).trans (if_pos (List.mem_finRange l))⟩

/-- Settles O2: `u` is the part after the count-down. -/
theorem emptyQueueIsOneMillisecond : Obligations.EmptyQueueIsOneMillisecond := by
  intro s empty
  refine ⟨countDown s, tick s, step_empty empty, rfl, countDown_source s, countDown_line s,
    countDown_list s, fun h slot => ?_, tick_quiet, tick_chain s⟩
  rw [countDown_runtime, State.tickRuntime]
  simp only [counting_iff]

end Sys2Proof.Machine
end

section
/-! PROOF. The frame store (R64, R79 to R86, O52, O56): what can happen to the page tables, the claims of the
heads and the SDRAM, event by event; every step is a run of such events, and each of them keeps the canonical
form of the cells and the writer pages free. -/

namespace Sys2Proof.Machine

/-! ### One page table (R80 to R85) -/

/-- From `t` to `t'` the writer ends, or it goes on with its page and the page does not become the newest. -/
def PageTable.WriterKept (t t' : PageTable) : Prop :=
  ∀ w', t'.writer = some w' → ∃ w, t.writer = some w ∧ w'.page = w.page
    ∧ (t.newest ≠ some w.page → t'.newest ≠ some w.page)

namespace PageTable.WriterKept
variable {t t' t'' : PageTable}

theorem ended (free : t'.writer = none) : t.WriterKept t' := fun _ writer =>
  absurd (free.symm.trans writer) nofun

theorem refl (t : PageTable) : t.WriterKept t := fun w writer => ⟨w, writer, rfl, id⟩

theorem trans (a : t.WriterKept t') (b : t'.WriterKept t'') : t.WriterKept t'' := by
  intro w'' writer''
  obtain ⟨w', writer', page', newest'⟩ := b w'' writer''
  obtain ⟨w, writer, page, newest⟩ := a w' writer'
  rw [page] at page' newest'
  exact ⟨w, writer, page', newest' ∘ newest⟩

/-- R85. -/
theorem cleared (t : PageTable) : t.WriterKept t.cleared := fun w writer =>
  ⟨w, writer, rfl, fun _ => nofun⟩

/-- R82. -/
theorem topEnd (t : PageTable) (good : Bool) : t.WriterKept (t.topEnd good) := by
  intro w' writer'
  obtain ⟨w, writer, rfl⟩ := Option.map_eq_some_iff.1 writer'
  exact ⟨w, writer, rfl, id⟩

/-- R83: at a bottom-field end no frame is left to write. -/
theorem bottomEnd (t : PageTable) (good : Bool) : t.WriterKept (t.bottomEnd good) := by
  refine ended ?_
  cases writer : t.writer with
  | none => rw [bottomEnd_none writer, writer]
  | some w =>
      by_cases both : w.top = some true ∧ good = true
      · rw [bottomEnd_completes writer both]
      · rw [bottomEnd_discards writer both]

/-- R66, R83 to R85: a page that a field end completes is the newest, and no longer the writer's. -/
theorem fieldEnd (t : PageTable) (before after : SourceState) (top good : Bool) :
    t.WriterKept (t.fieldEnd before after top good) := by
  have judged {u : PageTable} (kept : t.WriterKept u) :
      t.WriterKept (if top then u.topEnd good else u.bottomEnd good) := by
    split
    · exact kept.trans (topEnd u good)
    · exact kept.trans (bottomEnd u good)
  by_cases stays : Written after
  · rw [PageTable.fieldEnd, writes_iff.2 stays]
    refine judged ?_
    split
    · exact cleared t
    · exact refl t
  · rw [pageEnd_left stays]
    exact ended rfl

end PageTable.WriterKept

/-! ### Events apart from the frame store -/

/-- From `s` to `t` the page tables and the SDRAM stand, and no head takes a claim. -/
structure StoreApart (s t : State) : Prop where
  pages : t.pages = s.pages
  store : t.store = s.store
  held : ∀ h i p, t.holds h i p = true → s.holds h i p = true

theorem State.holds_iff {s : State} {h : Head} {i : SourceId} {p : PageId} :
    s.holds h i p = true ↔ (s.head h).claims.get i = some p := decide_eq_true_iff

namespace StoreApart
variable {s t u : State}

theorem trans (a : StoreApart s t) (b : StoreApart t u) : StoreApart s u :=
  ⟨b.pages.trans a.pages, b.store.trans a.store, fun h i p held => a.held h i p (b.held h i p held)⟩

theorem of_same (pages : t.pages = s.pages) (store : t.store = s.store) (heads : t.heads = s.heads) :
    StoreApart s t := ⟨pages, store, fun h i p held => by
  rw [State.holds_iff, State.head] at held ⊢
  rwa [← heads]⟩

/-- Events that leave each head its claims, whatever else of the heads they change. -/
theorem of_kept (pages : t.pages = s.pages) (store : t.store = s.store) (kept : ∀ h, HeadKept h s t) :
    StoreApart s t := ⟨pages, store, fun h i p held => by
  rw [State.holds_iff] at held ⊢
  rwa [← (kept h).claims]⟩

theorem refl (s : State) : StoreApart s s := of_same rfl rfl rfl

theorem alarm (frame : AlarmFrame s t) : StoreApart s t :=
  of_kept ((congrArg State.pages frame).trans rfl) ((congrArg State.store frame).trans rfl)
    fun _ => .alarm frame

theorem tour (frame : TourFrame s t) : StoreApart s t :=
  of_kept ((congrArg State.pages frame).trans rfl) ((congrArg State.store frame).trans rfl)
    fun _ => .tour frame

theorem changeSource (i : SourceId) (r : SourceRecord) (s : State) : StoreApart s (s.changeSource i r) :=
  of_kept (changeSource_pages ..) (changeSource_store ..) fun _ =>
    .video ((VideoFrame.refl s).changeSource i r)

/-- A head's record replaced, each of its claims kept or released. -/
theorem setHead (j : Head) {r : HeadRecord}
    (claims : ∀ i p, r.claims.get i = some p → (s.head j).claims.get i = some p) :
    StoreApart s (s.setHead j r) := ⟨rfl, rfl, fun h i p held => by
  rw [State.holds_iff, State.setHead_head] at held
  rw [State.holds_iff]
  split at held
  · next same => exact same ▸ claims i p held
  · exact held⟩

/-- R48, R86: a head that releases its claims holds no page. -/
theorem released (j : Head) {r : HeadRecord} (claims : r.claims = noClaims) :
    StoreApart s (s.setHead j r) := setHead j fun i p held => by
  rw [claims, noClaims, Table.get_fill] at held
  exact absurd held nofun

/-- R25, R29. -/
theorem endCommit (h : Head) (r : Result) (s : State) : StoreApart s (endCommit h r s) := by
  obtain ⟨mark, eq⟩ := endCommit_eq h r s
  rw [eq]
  exact of_same rfl rfl rfl

/-- R26. -/
theorem applyBank (h : Head) (new : Bank) (s : State) : StoreApart s (applyBank h new s) := by
  refine of_kept ?_ ?_ fun _ => .applyBank h new s
  all_goals
    unfold Machine.applyBank
    rw [carryOver_records]
    rfl

/-- R26, R27. -/
theorem applyCommit (h : Head) (detail : Nat) (s : State) : StoreApart s (applyCommit h detail s) := by
  cases pending : (s.dir h).commit with
  | none => rw [applyCommit_none pending]; exact refl s
  | some c =>
      rw [applyCommit_some pending]
      have ended : StoreApart s (s.setDir h (s.dir h).ended) := of_same rfl rfl rfl
      exact (ended.trans (applyBank h c.bank _)).trans (of_same rfl rfl rfl)

/-- R27, R41. -/
theorem completeStop (h : Head) (s : State) : StoreApart s (completeStop h s) := by
  rw [completeStop_eq]
  exact (released h rfl).trans (applyCommit h 0 _)

end StoreApart

/-! ### The events of the frame store -/

/-- One thing that can happen to the page tables, the claims of the heads and the SDRAM. -/
inductive StoreEvent (s : State) : State → Prop where
  /-- Events of the other units, and claims released (R48). -/
  | apart {t : State} (a : StoreApart s t) : StoreEvent s t
  /-- R43 step 4, R86: a head claims the newest pages of the sources it shows. -/
  | beginFrame (h : Head) : StoreEvent s (beginFrame h s)
  /-- R64: an active line is stored. -/
  | line (i : SourceId) (top : Bool) (k : Nat) (bytes : List Byte) :
      StoreEvent s (s.setStore (storeActiveLine i top k bytes s).store)
  /-- R82: the lines that did not come are filled. -/
  | fill (i : SourceId) (top : Bool) (k : Nat) : StoreEvent s (s.setStore (fillField i top k s).store)
  /-- R81. -/
  | topFieldStart (i : SourceId) : StoreEvent s (topFieldStart i s)
  /-- R82 to R85: no writer begins. -/
  | table (i : SourceId) (t : PageTable) (kept : (s.page i).WriterKept t) : StoreEvent s (s.setPage i t)
  /-- R158, log 7: the page tables and the claims are reset, and the SDRAM stands. -/
  | deviceReset {t : State} (pages : t.pages = State.reset.pages) (store : t.store = s.store) :
      StoreEvent s t

/-- R64, R79, log 7: bytes are written one by one, each in canonical form. -/
theorem StoreEvent.storeOk {s t : State} (e : StoreEvent s t) (ok : s.StoreOk) : t.StoreOk := by
  have same {u : State} (store : u.store = s.store) : u.StoreOk := by
    unfold State.StoreOk
    rw [store]
    exact ok
  cases e with
  | apart a => exact same a.store
  | beginFrame h => exact same rfl
  | line i top k bytes => exact wf_storeActiveLine i top k bytes ok
  | fill i top k => exact wf_fillField i top k ok
  | topFieldStart i => exact same ((congrArg State.store (topFieldStart_page i s)).trans rfl)
  | table => exact same rfl
  | deviceReset _ store => exact same store

/-! ### The writer pages (R81) -/

/-- R43 step 4, R46: what a head comes to hold with its frame is newest. -/
theorem beginFrame_holds {h j : Head} {i : SourceId} {p : PageId} {s : State}
    (held : (beginFrame h s).holds j i p = true) :
    s.holds j i p = true ∨ (s.page i).newest = some p := by
  rw [State.holds_iff, beginFrame, State.setPort_head, State.setHead_head] at held
  split at held
  · refine .inr ?_
    rw [takeClaims, Table.get_ofFn] at held
    split at held
    · exact held
    · cases held
  · exact .inl (State.holds_iff.2 held)

/-- R81 step 2. -/
theorem choosePage_free {s : State} {i : SourceId} {p : PageId} (chosen : s.choosePage i = some p) :
    (s.page i).newest ≠ some p ∧ ∀ h, s.holds h i p = false := by
  have free := List.find?_some chosen
  simp only [State.choosable, Bool.and_eq_true, decide_eq_true_eq, Bool.not_eq_true'] at free
  obtain ⟨⟨fresh, freeA⟩, freeB⟩ := free
  exact ⟨fresh, fun h => by cases h <;> assumption⟩

namespace State.WritersOk
variable {s t : State}

/-- A head takes no claim on a page but the newest one. -/
theorem of_claims (ok : s.WritersOk) (pages : t.pages = s.pages)
    (held : ∀ h i p, t.holds h i p = true → s.holds h i p = true ∨ (s.page i).newest = some p) :
    t.WritersOk := by
  intro i w writer
  rw [State.page, pages] at writer ⊢
  obtain ⟨fresh, free⟩ := ok i w writer
  refine ⟨fresh, fun h => Bool.eq_false_iff.2 fun holds => ?_⟩
  rcases held h i w.page holds with before | newest
  · exact absurd ((free h).symm.trans before) nofun
  · exact fresh newest

theorem setPage (ok : s.WritersOk) (i : SourceId) {t : PageTable}
    (new : ∀ w, t.writer = some w → t.newest ≠ some w.page ∧ ∀ h, s.holds h i w.page = false) :
    (s.setPage i t).WritersOk := by
  intro j w writer
  rw [State.setPage_page] at writer ⊢
  by_cases same : j = i
  · subst same
    rw [if_pos rfl] at writer ⊢
    exact new w writer
  · rw [if_neg same] at writer ⊢
    exact ok j w writer

/-- R82 to R85. -/
theorem table (ok : s.WritersOk) (i : SourceId) {t : PageTable} (kept : (s.page i).WriterKept t) :
    (s.setPage i t).WritersOk := ok.setPage i fun w' writer' => by
  obtain ⟨w, writer, page, newest⟩ := kept w' writer'
  obtain ⟨fresh, free⟩ := ok i w writer
  rw [page]
  exact ⟨newest fresh, free⟩

/-- R81: a new writer takes a page that is neither newest nor held. -/
theorem topFieldStart (ok : s.WritersOk) (i : SourceId) : (topFieldStart i s).WritersOk := by
  unfold Machine.topFieldStart
  dsimp only
  split
  · refine ok.setPage i fun w writer => ?_
    obtain ⟨p, chosen, rfl⟩ := Option.map_eq_some_iff.1 writer
    exact choosePage_free chosen
  · exact ok.table i (.ended rfl)

theorem of_resetPages (pages : t.pages = State.reset.pages) : t.WritersOk := by
  intro i w writer
  have free : (t.page i).writer = none := by
    rw [State.page, pages]
    exact congrArg PageTable.writer (Table.get_fill _ i)
  exact absurd (free.symm.trans writer) nofun

end State.WritersOk

theorem StoreEvent.writersOk {s t : State} (e : StoreEvent s t) (ok : s.WritersOk) : t.WritersOk := by
  cases e with
  | apart a => exact ok.of_claims a.pages fun h i p held => .inl (a.held h i p held)
  | beginFrame h => exact ok.of_claims rfl fun _ _ _ held => beginFrame_holds held
  | line => exact ok
  | fill => exact ok
  | topFieldStart i => exact ok.topFieldStart i
  | table i t kept => exact ok.table i kept
  | deviceReset pages => exact .of_resetPages pages

/-! ### Runs of events -/

/-- Events of the frame store, one after another. -/
abbrev StoreRun : State → State → Prop := Relation.ReflTransGen StoreEvent

namespace StoreRun
variable {s t : State}

theorem keeps {P : State → Prop} (each : ∀ s t, StoreEvent s t → P s → P t) (run : StoreRun s t)
    (ok : P s) : P t := by
  induction run with
  | refl => exact ok
  | tail _ e ih => exact each _ _ e ih

theorem apart (a : StoreApart s t) : StoreRun s t := .single (.apart a)

theorem setSource (run : StoreRun s t) (i : SourceId) (r : SourceRecord) : StoreRun s (t.setSource i r) :=
  run.tail (.apart (.of_same rfl rfl rfl))

/-- R66, R82 to R85. -/
theorem fieldEnd (i : SourceId) (s : State) : StoreRun s (fieldEnd i s) := by
  cases field : (s.source i).field with
  | none => rw [fieldEnd_none field]
  | some f =>
      rw [fieldEnd_some field]
      have filled : StoreRun s _ := .single (.fill i (isTop (s.source i) f.bit) f.lines)
      exact (filled.tail (.table i _ (.fieldEnd _ _ _ _ _))).tail (.apart (.changeSource i _ _))

/-- R62 to R64. -/
theorem closeLine (i : SourceId) (final : Bool) (bytes : List Byte) (s : State) :
    StoreRun s (closeLine i final bytes s) := by
  cases opened : (s.source i).lineOpen with
  | false => rw [closeLine_closed opened]
  | true =>
      cases field : (s.source i).field with
      | none => rw [closeLine_apart opened field]; exact setSource .refl i _
      | some f =>
          have counted : StoreRun s (countLine i f final bytes s) := by
            rw [countLine_eq]
            exact setSource (.single (.line i (isTop (s.source i) f.bit) f.lines bytes)) i _
          rw [closeLine_some opened field]
          split
          · exact counted.trans (fieldEnd i _)
          · exact counted

/-- R63, R81. -/
theorem openLine (i : SourceId) (bit : Bool) (s : State) : StoreRun s (openLine i bit s) := by
  by_cases starts : (s.source i).sawBlank = true ∧ (s.source i).field = none
  · obtain ⟨blank, idle⟩ := starts
    have begun : StoreRun s (s.setSource i ((s.source i).begun bit)) := setSource .refl i _
    rw [openLine_begins blank idle]
    split
    · exact begun.tail (.topFieldStart i)
    · exact begun
  · rw [not_and_or, Bool.not_eq_true] at starts
    rw [openLine_within starts]
    exact setSource .refl i _

theorem actOnCode (i : SourceId) (flags : Byte) (s : State) : StoreRun s (actOnCode i flags s) := by
  unfold Machine.actOnCode
  split
  · exact (fieldEnd i s).setSource i _
  split
  · exact .refl
  · exact openLine i _ s

theorem takeCode (i : SourceId) (flags : Byte) (bytes : List Byte) (s : State) :
    StoreRun s (takeCode i flags bytes s) := by
  rw [takeCode_eq]
  have timed : StoreRun s (restartTimer i s) := setSource .refl i _
  exact (timed.trans (closeLine i _ bytes _)).trans (actOnCode i flags _)

/-- R62: the codes of a stretch. -/
theorem takeCodes (i : SourceId) (codes : List (List Byte × Byte)) (s : State) :
    StoreRun s (Machine.takeCodes i codes s) :=
  List.foldlRecOn codes _ Relation.ReflTransGen.refl fun t run c _ => run.trans (takeCode i c.2 c.1 t)

/-- R68, R75 to R77, R84, R85: a source's writer is abandoned with the change of its record. -/
theorem tableAndSource (i : SourceId) {t : PageTable} (kept : (s.page i).WriterKept t) (r : SourceRecord) :
    StoreRun s ((s.setPage i t).changeSource i r) :=
  .tail (.single (.table i t kept)) (.apart (.changeSource i r _))

end StoreRun

/-! ### Every step is a run -/

/-- R75 to R77: SOURCE_SET and SOURCE_DISABLE alone reach the frame store. -/
theorem RingEffect.storeRun {s u : State} (e : RingEffect s u) : StoreRun s u := by
  have same {t : State} (pages : t.pages = s.pages) (store : t.store = s.store)
      (heads : t.heads = s.heads) : StoreRun s t := .apart (.of_same pages store heads)
  cases e with
  | place => exact same rfl rfl rfl
  | modify => exact same rfl rfl rfl
  | restack => exact same rfl rfl rfl
  | retire => exact same rfl rfl rfl
  | clear => exact same rfl rfl rfl
  | revert => exact same rfl rfl rfl
  | commitNow hd => exact .apart ((StoreApart.endCommit hd _ s).trans (.applyBank hd _ _))
  | commitLater hd =>
      exact .apart ((StoreApart.endCommit hd .superseded s).trans (.of_same rfl rfl rfl))
  | cancel hd => exact .apart (.endCommit hd _ s)
  | startHead hd => exact .apart (.setHead hd fun _ _ held => held)
  | stopInFrame hd => exact .apart (.setHead hd fun _ _ held => held)
  | stopNow hd => exact .apart (.completeStop hd s)
  | nothing => exact .refl
  | colour => exact same rfl rfl rfl
  | background hd => exact .apart (.setHead hd fun _ _ held => held)
  | configure i => exact .tableAndSource i (.ended rfl) _
  | disable i => exact .tableAndSource i (.ended rfl) _
  | lockParams => exact same rfl rfl rfl
  | masks => exact same rfl rfl rfl
  | defineTour => exact same rfl rfl rfl
  | redefineTour => exact same rfl rfl rfl
  | retireTour => exact same rfl rfl rfl
  | control => exact .apart (.tour (controlRuntime_tourFrame ..))
  | line l r => exact .apart (.alarm (lineSet_alarmFrame l r s))
  | rule n => exact .apart ((StoreApart.alarm (removeEntryOf_alarmFrame n s)).trans (.of_same rfl rfl rfl))
  | trigger n r u position stands fires =>
      have frame := fire_alarmFrame .software n r s
      rw [fires] at frame
      exact .apart (.alarm frame)
  | clearEntries => exact .apart (.alarm ((AlarmFrame.refl s).replaceList _ _ _))

/-- Each event of the part. -/
theorem ExecEffect.storeRun {s t : State} (e : ExecEffect s t) : StoreRun s t := by
  have same {t : State} (pages : t.pages = s.pages) (store : t.store = s.store)
      (heads : t.heads = s.heads) : StoreRun s t := .apart (.of_same pages store heads)
  cases e with
  | command p q effect =>
      have before : StoreRun s (s.setPort p) := same rfl rfl rfl
      exact (before.trans effect.storeRun).tail (.apart (.of_same rfl rfl rfl))
  | port => exact same rfl rfl rfl
  | portReset => exact same rfl rfl rfl
  | resultWrite => exact same rfl rfl rfl
  | frameStart h =>
      have applied : StoreRun s (applyCommit h (nextFrame s h).toNat s) := .apart (.applyCommit h _ s)
      exact (applied.tail (.beginFrame h)).tail (.apart (.of_same rfl rfl rfl))
  | frameEnd h =>
      have released : StoreApart s (releaseClaims h s) := .released h rfl
      exact .apart (released.trans (.of_same rfl rfl rfl))
  | lastFrameEnd h => exact .apart ((StoreApart.completeStop h s).trans (.of_same rfl rfl rfl))
  | timingCodes p i owns codes => exact .takeCodes i codes s
  | lossExpiry i => exact .tableAndSource i (.ended rfl) _
  | dwellExpiry => exact .apart (.tour (advanceRuntime_tourFrame ..))
  | pin => exact same rfl rfl rfl
  | sample l =>
      exact .apart (.alarm (((AlarmFrame.refl s).setLine l _).trans (takeSample_alarmFrame l _)))
  | debounceExpiry l => exact .apart (.alarm (lineCompares_alarmFrame l s))
  | holdExpiry => exact .apart (.alarm ((AlarmFrame.refl s).replaceList _ _ _))
  | deviceReset => exact .single (.deviceReset rfl rfl)

/-- The count-down and the samples of a millisecond reach nothing of the frame store. -/
theorem tick_storeApart (s : State) : StoreApart s (tick s) := by
  have counted : StoreApart s (countDown s) := .of_same rfl rfl rfl
  exact counted.trans (.alarm (tick_alarmFrame s))

theorem step_storeRun {s t : State} (run : step s = .next t) : StoreRun s t :=
  step_keeps (P := StoreRun s) (fun _ _ before => before.tail (.apart (.of_same rfl rfl rfl)))
    (fun u before => before.tail (.apart (tick_storeApart u)))
    (fun _ _ effect before => before.trans effect.storeRun) .refl run

/-- Settles O52: every event of a step's run keeps the cells canonical. -/
theorem everyStepKeepsTheStoreCanonical : Obligations.EveryStepKeepsTheStoreCanonical := fun _ _ ok run =>
  (step_storeRun run).keeps (fun _ _ e ok => e.storeOk ok) ok

/-- Settles O56: every event of a step's run keeps the writer pages free. -/
theorem everyStepKeepsWriterPagesFree : Obligations.EveryStepKeepsWriterPagesFree := fun _ _ ok run =>
  (step_storeRun run).keeps (fun _ _ e ok => e.writersOk ok) ok

end Sys2Proof.Machine
end

section
/-! PROOF. The commands of the masks (O29): MASK_SET and MASK_CLEAR. -/

namespace Sys2Proof.Table
variable {n : Nat} {α : Type} {t : Table n α} {i : Fin n} {p : α → Bool}

theorem count_set (x : α) : (t.set i x).count p =
    t.count p - (if p (t.get i) then 1 else 0) + if p x then 1 else 0 :=
  List.countP_set _

theorem count_pos (holds : p (t.get i) = true) : 0 < t.count p :=
  List.countP_pos_iff.2 ⟨_, mem_cells.2 ⟨i, rfl⟩, holds⟩

end Sys2Proof.Table

namespace Sys2Proof.Machine

/-! ### How many masks are emptied (R93) -/

/-- MASK_CLEAR of one slot. -/
theorem masksHeld_sub_set_none (slots : MaskSlots) (k : MaskId) :
    masksHeld slots - masksHeld (slots.set k none) = if (slots.get k).isSome then 1 else 0 := by
  unfold masksHeld
  rw [Table.count_set]
  cases held : (slots.get k).isSome with
  | false => exact Nat.sub_self _
  | true =>
      have positive : 0 < slots.count Option.isSome := Table.count_pos held
      exact Nat.sub_sub_self positive

/-- MASK_CLEAR of ALL. -/
theorem masksHeld_sub_fill_none (slots : MaskSlots) :
    masksHeld slots - masksHeld (.fill 4 none) = slots.count Option.isSome :=
  Nat.sub_zero _

/-! ### The commands -/

theorem Mask.geometryOk_iff {m : Mask} : m.geometryOk = true ↔ m.x + m.w ≤ 720 ∧ m.y + m.h ≤ 576 := by
  simp only [Mask.geometryOk, Bool.and_eq_true, decide_eq_true_eq]

section
variable {h : Header} {i : SourceId} {k : MaskId} {m : Mask} {s : State}

/-- R92, past step 1. -/
theorem maskSet_eq (clean : h.clean = true) (carried : parseMask (codeMask i k m) = some m) :
    maskSet h (codeMask i k m) s =
      if !m.geometryOk then refuse s .badGeometry
      else (s.setMasks i ((s.masks.get i).set k (some m)),
        .done .ok (masksHeld ((s.masks.get i).set k (some m)))) := by
  have source : parseFin 16 (codeMask i k m).source = some i := parseFin_val i
  have slot : parseFin 4 (codeMask i k m).slot = some k := parseFin_val k
  simp only [maskSet, source, slot, carried, clean, Bool.not_true, Bool.false_eq_true, if_false]

/-- R93, past its checks, of one slot or (with none) of ALL. -/
theorem maskClear_eq (clean : h.clean = true) (slot : Option MaskId) :
    maskClear h i.val (codeOrNone slot) s =
      (s.setMasks i (clearedSlots (s.masks.get i) slot),
        .done .ok (masksHeld (s.masks.get i) - masksHeld (clearedSlots (s.masks.get i) slot))) := by
  have named : parseFinOrNone 4 (codeOrNone slot) = some slot := (parseFinOrNone_eq (by decide)).2 rfl
  simp only [maskClear, parseFin_val, named, clean, Bool.not_true, Bool.false_eq_true, if_false]

theorem exec_maskSet_leavesFrame (ready : s.Ready) (clean : h.clean = true)
    (carried : parseMask (codeMask i k m) = some m) (leaves : 720 < m.x + m.w ∨ 576 < m.y + m.h) :
    exec (.maskSet h (codeMask i k m)) s = .next (s.afterCommand (answers h 0x38 .badGeometry 0)) := by
  have fails : m.geometryOk = false := Bool.eq_false_iff.2 fun ok => by
    have inside := Mask.geometryOk_iff.1 ok
    omega
  have reply : maskSet h (codeMask i k m) s.taken = refuse s.taken .badGeometry := by
    rw [maskSet_eq clean carried, fails]
    rfl
  exact congrArg _ (arrive_refused ready reply)

theorem exec_maskSet_inFrame (ready : s.Ready) (clean : h.clean = true)
    (carried : parseMask (codeMask i k m) = some m) (inside : m.x + m.w ≤ 720 ∧ m.y + m.h ≤ 576) :
    exec (.maskSet h (codeMask i k m)) s =
      .next ((s.setMasks i ((s.masks.get i).set k (some m))).afterCommand
        (answers h 0x38 .ok (masksHeld ((s.masks.get i).set k (some m))))) := by
  have reply : maskSet h (codeMask i k m) s.taken =
      (s.taken.setMasks i ((s.masks.get i).set k (some m)),
        .done .ok (masksHeld ((s.masks.get i).set k (some m)))) := by
    rw [maskSet_eq clean carried, Mask.geometryOk_iff.2 inside]
    rfl
  exact congrArg _ (arrive_ok ready reply rfl)

theorem exec_maskClear (ready : s.Ready) (clean : h.clean = true) (slot : Option MaskId) :
    exec (.maskClear h i.val (codeOrNone slot)) s =
      .next ((s.setMasks i (clearedSlots (s.masks.get i) slot)).afterCommand (answers h 0x39 .ok
        (masksHeld (s.masks.get i) - masksHeld (clearedSlots (s.masks.get i) slot)))) :=
  congrArg _ (arrive_ok ready (maskClear_eq (s := s.taken) clean slot) rfl)

end

theorem maskClear_outOfRange {h : Header} {source slot : Nat}
    (wrong : 16 ≤ source ∨ (4 ≤ slot ∧ slot ≠ 255)) :
    operandsInRange (.maskClear h source slot) = false := by
  simp only [operandsInRange, namesOrNone, Bool.and_eq_false_iff, Bool.or_eq_false_iff,
    decide_eq_false_iff_not]
  omega

/-- Settles O29, command by command; the operands outside their ranges are O10's. -/
theorem maskSetAndClear : Obligations.MaskSetAndClear := by
  intro h i k m s ready clean
  refine ⟨fun maxX evenX maxY minW maxW evenW minH maxH kind => ?_, ?_, ?_, fun h' =>
    ⟨fun a malformed => ?_, fun source slot malformed => ?_⟩⟩
  · have carried : parseMask (codeMask i k m) = some m :=
      parseMask_code ⟨maxX, evenX, maxY, minW, maxW, evenW, minH, maxH⟩ kind
    exact ⟨exec_maskSet_leavesFrame ready clean carried,
      fun right bottom => exec_maskSet_inFrame ready clean carried ⟨right, bottom⟩⟩
  · rw [← masksHeld_sub_set_none]
    exact exec_maskClear ready clean (some k)
  · rw [← masksHeld_sub_fill_none]
    exact exec_maskClear ready clean none
  · exact operandOutOfRangeRefused _ h' 0x38 s rfl rfl nofun ready malformed
  · exact operandOutOfRangeRefused _ h' 0x39 s rfl rfl nofun ready
      (malformed.imp_right maskClear_outOfRange)

end Sys2Proof.Machine
end

section
/-! PROOF. Tours: the step decision (R107 to R109), the runtime of a LIVE slot and the bindings of a tour,
for the commands and the invariant alike. -/

namespace Sys2Proof.Machine

/-! ### The step decision (R107 to R109) -/

theorem usable_iff {st : SourceState} : usable st = true ↔ Written st := by
  cases st <;> simp [usable, Written]

theorem stepUsable_iff {s : State} {t : Tour} {k : Nat} : s.stepUsable t k = true ↔ StepUsable s t k := by
  unfold State.stepUsable StepUsable
  cases t.steps[k]? with
  | none => simp
  | some st => simp [usable_iff]

theorem stepUsable_eq_false {s : State} {t : Tour} {k : Nat} :
    s.stepUsable t k = false ↔ ¬ StepUsable s t k := by
  rw [← stepUsable_iff, Bool.not_eq_true]

/-- R108: the search finds the first usable step after the current one. -/
theorem searchOrder_find_some {n step k : Nat} {p : Nat → Bool}
    (found : (searchOrder n step).find? p = some k) :
    ∃ d, d < n ∧ k = (step + 1 + d) % n ∧ p k = true ∧ ∀ c, c < d → p ((step + 1 + c) % n) = false := by
  rw [searchOrder, List.find?_map] at found
  obtain ⟨d, first, rfl⟩ := Option.map_eq_some_iff.1 found
  obtain ⟨usable, range, before⟩ := List.find?_range_eq_some.1 first
  exact ⟨d, List.mem_range.1 range, rfl, usable, fun c earlier => by simpa using before c earlier⟩

theorem searchOrder_find_none {n step : Nat} {p : Nat → Bool}
    (lost : (searchOrder n step).find? p = none) (d : Nat) (inTour : d < n) :
    p ((step + 1 + d) % n) = false := by
  have mem : (step + 1 + d) % n ∈ searchOrder n step :=
    List.mem_map.2 ⟨d, List.mem_range.2 inTour, rfl⟩
  simpa using List.find?_eq_none.1 lost _ mem

theorem decideStep_nextStep (s : State) (t : Tour) (step : Nat) :
    NextStep s t step (s.decideStep t step).1 (s.decideStep t step).2 := by
  unfold State.decideStep NextStep
  cases t.skipLost with
  | false => exact ⟨rfl, rfl⟩
  | true =>
      simp only [Bool.true_eq_false, if_false, if_true]
      split
      · next k found =>
          obtain ⟨d, inTour, rfl, usable, before⟩ := searchOrder_find_some found
          exact .inl ⟨d, inTour, rfl, stepUsable_iff.1 usable, rfl,
            fun c earlier => stepUsable_eq_false.1 (before c earlier)⟩
      · next lost =>
          exact .inr ⟨fun d inTour => stepUsable_eq_false.1 (searchOrder_find_none lost d inTour), rfl, rfl⟩

/-- R107, R108: the new step lies within the tour. -/
theorem NextStep.lt {s : State} {t : Tour} {step k : Nat} {lost : Bool} (next : NextStep s t step k lost)
    (steps : 1 ≤ t.steps.length) : k < t.steps.length := by
  have wraps (d : Nat) : d % t.steps.length < t.steps.length := Nat.mod_lt _ steps
  unfold NextStep at next
  split at next
  · rw [next.1]; exact wraps _
  · obtain ⟨d, -, rfl, -⟩ | ⟨-, rfl, -⟩ := next <;> exact wraps _

theorem advanceRuntime_eq (h : Head) (slot : SlotId) (t : Tour) (r : Runtime) (s : State) :
    advanceRuntime h slot t r s =
      s.movedTo h slot t r (s.decideStep t r.step).1 (s.decideStep t r.step).2 := rfl

/-! ### Touring slots (R104) -/

theorem touring_eq_some {s : State} {h : Head} {slot : SlotId} {t : Tour} {r : Runtime} :
    s.touring h slot = some (t, r) ↔
      ∃ tile y, s.liveTile h slot = some tile ∧ tile.tour = some y ∧ s.tour y = some t
        ∧ s.runtime h slot = some r := by
  unfold State.touring
  cases s.liveTile h slot with
  | none => simp
  | some tile =>
      cases bound : tile.tour with
      | none => simp [bound]
      | some y =>
          cases defined : s.tour y with
          | none => simp [bound, defined]
          | some t' => cases s.runtime h slot <;> simp [bound, defined]

/-- R102: what TOUR_SET makes of a runtime, whether or not it follows the tour. -/
theorem restartedRuntime_eq (s : State) (y : TourId) (t : Tour) (h : Head) (slot : SlotId) :
    restartedRuntime s y t h slot = (s.runtime h slot).map (fun r =>
      if (s.liveTile h slot).bind (fun tile => tile.tour) = some y then r.atStep t 0 else r) := by
  unfold restartedRuntime
  cases s.liveTile h slot with
  | none => cases s.runtime h slot <;> rfl
  | some tile =>
      cases s.runtime h slot with
      | none => rfl
      | some r => exact (apply_ite some _ _ _).symm

theorem restartedRuntimes_get (s : State) (y : TourId) (t : Tour) (h : Head) (slot : SlotId) :
    (PerHead.get ⟨Table.ofFn (restartedRuntime s y t .a), Table.ofFn (restartedRuntime s y t .b)⟩ h).get
      slot = restartedRuntime s y t h slot := by
  cases h <;> exact Table.get_ofFn _ slot

theorem bindsRuntime_eq (s : State) (y : TourId) (h : Head) (slot : SlotId) :
    bindsRuntime s y h slot =
      (decide ((s.liveTile h slot).bind (fun tile => tile.tour) = some y) && (s.runtime h slot).isSome) := by
  unfold bindsRuntime
  cases s.liveTile h slot with
  | none => rfl
  | some tile =>
      cases s.runtime h slot with
      | none => exact (Bool.and_false _).symm
      | some r => exact (Bool.and_true _).symm

/-! ### The banks that bind a tour (R100, R103) -/

/-- WORKING, LIVE, or the bank of the pending commit. -/
def Directory.HasBank (d : Directory) (b : Bank) : Prop :=
  b = d.working ∨ b = d.live ∨ ∃ c, d.commit = some c ∧ b = c.bank

/-- No DEFINED slot of the bank binds the tour. -/
def Bank.Unbound (b : Bank) (y : TourId) : Prop :=
  ∀ slot tile, b.slots.get slot = some tile → tile.tour ≠ some y

theorem Bank.bindings_eq_zero {b : Bank} {y : TourId} : b.bindings y = 0 ↔ b.Unbound y := by
  rw [Bank.bindings, Table.count_eq, List.countP_eq_zero]
  refine ⟨fun none_binds slot tile stands => ?_, fun unbound slot _ => ?_⟩
  · simpa [stands] using none_binds slot (List.mem_finRange slot)
  · cases stands : b.slots.get slot with
    | none => simp
    | some tile => simpa using unbound slot tile stands

theorem Directory.bindings_eq_zero {d : Directory} {y : TourId} :
    d.bindings y = 0 ↔ ∀ b, d.HasBank b → b.Unbound y := by
  have parts : d.bindings y = 0 ↔ d.working.Unbound y ∧ d.live.Unbound y
      ∧ ∀ c, d.commit = some c → c.bank.Unbound y := by
    simp only [Directory.bindings, Nat.add_eq_zero_iff, Bank.bindings_eq_zero, and_assoc]
    cases d.commit <;> simp [Bank.bindings_eq_zero]
  rw [parts]
  constructor
  · rintro ⟨working, live, pending⟩ b (rfl | rfl | ⟨c, stands, rfl⟩)
    exacts [working, live, pending c stands]
  · exact fun all => ⟨all _ (.inl rfl), all _ (.inr (.inl rfl)),
      fun c stands => all _ (.inr (.inr ⟨c, stands, rfl⟩))⟩

/-- R103: the count is 0 where no bank of either head binds the tour. -/
theorem State.bindings_eq_zero {s : State} {y : TourId} :
    s.bindings y = 0 ↔ ∀ hd b, (s.dir hd).HasBank b → b.Unbound y := by
  rw [State.bindings, Nat.add_eq_zero_iff, Directory.bindings_eq_zero, Directory.bindings_eq_zero]
  exact ⟨fun ⟨ofA, ofB⟩ hd => by cases hd; exacts [ofA, ofB], fun all => ⟨all .a, all .b⟩⟩

end Sys2Proof.Machine
end

section
/-! PROOF. The tours, their bindings and their runtimes (R100, R104, R105, O59): the invariant slot by slot,
the changes of the banks, of the tours and of the runtimes that keep it, and every step. -/

namespace Sys2Proof.Machine

/-! ### Banks whose tours are DEFINED (R100) -/

namespace Bank.BindsDefined
variable {b : Bank} {s t : State}

theorem empty (s : State) : Bank.empty.BindsDefined s := fun slot tile _ stands => by
  rw [Bank.empty, Table.get_fill] at stands
  exact absurd stands nofun

/-- A new record in a slot names no EMPTY tour. -/
theorem set (ok : b.BindsDefined s) (k : SlotId) {tile : Tile} (defined : TourIsDefined s tile)
    (order : List SlotId) : Bank.BindsDefined { slots := b.slots.set k (some tile), order } s := by
  intro slot other y stands names
  rw [Table.get_set] at stands
  split at stands
  · cases stands; exact defined y names
  · exact ok slot other y stands names

theorem retire (ok : b.BindsDefined s) (k : SlotId) : (b.retire k).BindsDefined s := by
  intro slot tile y stands names
  rw [Bank.retire, Table.get_set] at stands
  split at stands
  · exact absurd stands nofun
  · exact ok slot tile y stands names

/-- The tours that the bank binds stay DEFINED. -/
theorem imp (ok : b.BindsDefined s)
    (stays : ∀ y, ¬ b.Unbound y → (s.tour y).isSome = true → (t.tour y).isSome = true) : b.BindsDefined t :=
  fun slot tile y stands names =>
    stays y (fun unbound => unbound slot tile stands names) (ok slot tile y stands names)

theorem of_tours (ok : b.BindsDefined s) (tours : t.tours = s.tours) : b.BindsDefined t :=
  ok.imp fun y _ defined => by rwa [State.tour, tours]

end Bank.BindsDefined

/-- R17: a TILE_MODIFY that leaves the group TOUR keeps the tour, which its bank binds. -/
theorem replaced_tourIsDefined {b : Bank} {s : State} {k : SlotId} {old : Tile} {groups : Nat}
    {tile : TileBlock} (ok : b.BindsDefined s) (stands : b.slots.get k = some old)
    (bound : selects groups 3 = true → (old.replaced groups tile).tourEmpty s = false) :
    TourIsDefined s (old.replaced groups tile) := by
  cases selected : selects groups 3 with
  | true => exact tourEmpty_eq_false_iff.1 (bound selected)
  | false =>
      intro y names
      rw [Tile.replaced, selected] at names
      exact ok k old y stands names

/-! ### The runtime of one LIVE slot (R104) -/

/-- R104: the runtime fits the LIVE slot's record: none where it binds no tour, and else one whose step lies
within the tour. -/
def Follows (s : State) (tile : Option Tile) : Option Runtime → Prop
  | none => tile.bind (fun o => o.tour) = none
  | some r => ∃ y t, tile.bind (fun o => o.tour) = some y ∧ s.tour y = some t ∧ r.step < t.steps.length

namespace Follows
variable {s u : State} {tile : Option Tile} {o : Option Runtime}

/-- Only the tour that the slot binds matters. -/
theorem imp (fits : Follows s tile o)
    (same : ∀ y, tile.bind (fun o => o.tour) = some y → u.tour y = s.tour y) : Follows u tile o := by
  cases o with
  | none => exact fits
  | some r =>
      obtain ⟨y, t, names, defined, inTour⟩ := fits
      exact ⟨y, t, names, (same y names).trans defined, inTour⟩

/-- A runtime that keeps its step. -/
theorem map (fits : Follows s tile o) {f : Runtime → Runtime} (step : ∀ r, (f r).step = r.step) :
    Follows s tile (o.map f) := by
  cases o with
  | none => exact fits
  | some r =>
      obtain ⟨y, t, names, defined, inTour⟩ := fits
      exact ⟨y, t, names, defined, by rwa [step]⟩

theorem idle (fits : Follows s tile o) (unbound : tile.bind (fun o => o.tour) = none) : o = none := by
  cases o with
  | none => rfl
  | some r =>
      obtain ⟨y, t, names, -⟩ := fits
      exact absurd (unbound.symm.trans names) nofun

end Follows

/-! ### The invariant -/

/-- What `State.ToursOk` asks, the banks taken together and the runtimes slot by slot. -/
structure State.ToursMatched (s : State) : Prop where
  lengths : ∀ y t, s.tour y = some t → 1 ≤ t.steps.length ∧ t.steps.length ≤ 12
  defined : ∀ h b, (s.dir h).HasBank b → b.BindsDefined s
  follows : ∀ h slot, Follows s (s.liveTile h slot) (s.runtime h slot)

theorem State.ToursMatched.touring_step {s : State} (ok : s.ToursMatched) {h : Head} {slot : SlotId}
    {t : Tour} {r : Runtime} (touring : s.touring h slot = some (t, r)) : r.step < t.steps.length := by
  obtain ⟨tile, y, live, names, tour, stands⟩ := touring_eq_some.1 touring
  have fits := ok.follows h slot
  rw [live, stands] at fits
  obtain ⟨y', t', names', tour', inTour⟩ := fits
  cases names.symm.trans names'
  cases tour.symm.trans tour'
  exact inTour

theorem State.ToursOk.follows {s : State} (ok : s.ToursOk) (h : Head) (slot : SlotId) :
    Follows s (s.liveTile h slot) (s.runtime h slot) := by
  have unbound := ok.idle h slot
  obtain ⟨-, banks, runtimes, steps⟩ := ok
  obtain ⟨-, live, -⟩ := banks h
  cases stands : s.runtime h slot with
  | none =>
      cases names : (s.liveTile h slot).bind (fun o => o.tour) with
      | none => exact names
      | some y =>
          have ⟨tile, defined, named⟩ := Option.bind_eq_some_iff.1 names
          have present := (runtimes h slot).2 ⟨tile, y, defined, named⟩
          rw [stands] at present
          exact absurd present nofun
  | some r =>
      obtain ⟨tile, y, defined, named⟩ := (runtimes h slot).1 (by rw [stands]; rfl)
      obtain ⟨t, tour⟩ := Option.isSome_iff_exists.1 (live slot tile y defined named)
      refine ⟨y, t, by rw [defined]; exact named, tour, ?_⟩
      exact steps h slot t r (touring_eq_some.2 ⟨tile, y, defined, named, tour, stands⟩)

theorem State.toursOk_iff {s : State} : s.ToursOk ↔ s.ToursMatched := by
  constructor
  · intro ok
    have follows := ok.follows
    obtain ⟨lengths, banks, -, -⟩ := ok
    refine ⟨lengths, fun h b bank => ?_, follows⟩
    obtain ⟨working, live, pending⟩ := banks h
    obtain rfl | rfl | ⟨c, stands, rfl⟩ := bank
    exacts [working, live, pending c stands]
  · intro ok
    refine ⟨ok.lengths, fun h => ⟨ok.defined h _ (.inl rfl), ok.defined h _ (.inr (.inl rfl)),
      fun c stands => ok.defined h _ (.inr (.inr ⟨c, stands, rfl⟩))⟩, fun h slot => ?_,
      fun h slot t r => ok.touring_step⟩
    have fits := ok.follows h slot
    cases stands : s.runtime h slot with
    | none =>
        rw [stands] at fits
        refine ⟨nofun, fun ⟨tile, y, live, names⟩ => ?_⟩
        rw [live] at fits
        exact absurd (fits.symm.trans names) nofun
    | some r =>
        rw [stands] at fits
        obtain ⟨y, t, names, -⟩ := fits
        obtain ⟨tile, live, named⟩ := Option.bind_eq_some_iff.1 names
        exact ⟨fun _ => ⟨tile, y, live, named⟩, fun _ => rfl⟩

namespace State.ToursMatched
variable {s t : State}

/-! ### Changes of the banks -/

/-- The tours, the runtimes and the LIVE banks stand; the banks of `t` bind no EMPTY tour. -/
theorem rebank (ok : s.ToursMatched) (tours : t.tours = s.tours) (runtimes : t.runtimes = s.runtimes)
    (live : ∀ h, (t.dir h).live = (s.dir h).live)
    (banks : ∀ h b, (t.dir h).HasBank b → b.BindsDefined s) : t.ToursMatched := by
  have tour (y : TourId) : t.tour y = s.tour y := by rw [State.tour, tours]; rfl
  refine ⟨fun y z defined => ok.lengths y z ((tour y).symm.trans defined),
    fun h b bank => (banks h b bank).of_tours tours, fun h slot => ?_⟩
  rw [State.liveTile, live, State.runtime, runtimes]
  exact (ok.follows h slot).imp fun y _ => tour y

/-- Events that reach neither the tours, nor the banks, nor the runtimes. -/
theorem of_apart (ok : s.ToursMatched) (tours : t.tours = s.tours) (dirs : t.dirs = s.dirs)
    (runtimes : t.runtimes = s.runtimes) : t.ToursMatched := by
  have dir (h : Head) : t.dir h = s.dir h := by rw [State.dir, dirs]; rfl
  exact ok.rebank tours runtimes (fun h => by rw [dir]) fun h b bank => ok.defined h b (dir h ▸ bank)

theorem alarm (ok : s.ToursMatched) (frame : AlarmFrame s t) : t.ToursMatched :=
  ok.of_apart ((congrArg State.tours frame).trans rfl) frame.dirs ((congrArg State.runtimes frame).trans rfl)

theorem video (ok : s.ToursMatched) (frame : VideoFrame s t) : t.ToursMatched :=
  ok.of_apart ((congrArg State.tours frame).trans rfl) frame.dirs ((congrArg State.runtimes frame).trans rfl)

/-- A directory edited off its LIVE bank. -/
theorem setDir (ok : s.ToursMatched) (h : Head) {d : Directory} (live : d.live = (s.dir h).live)
    (banks : ∀ b, d.HasBank b → b.BindsDefined s) : (s.setDir h d).ToursMatched := by
  refine ok.rebank rfl rfl (fun j => ?_) fun j b bank => ?_
  · rw [State.setDir_dir]
    split
    · next same => rw [live, same]
    · rfl
  · rw [State.setDir_dir] at bank
    split at bank
    · exact banks b bank
    · exact ok.defined j b bank

theorem setWorking (ok : s.ToursMatched) (h : Head) {b : Bank} (new : b.BindsDefined s) :
    (s.setWorking h b).ToursMatched :=
  ok.setDir h rfl fun _ bank => by
    obtain rfl | other := bank
    exacts [new, ok.defined h _ (.inr other)]

theorem setCommit (ok : s.ToursMatched) (h : Head) {o : Option CommitRecord}
    (new : ∀ c, o = some c → c.bank.BindsDefined s) :
    (s.setDir h { s.dir h with commit := o }).ToursMatched :=
  ok.setDir h rfl fun _ bank => by
    obtain working | live | ⟨c, stands, rfl⟩ := bank
    exacts [ok.defined h _ (.inl working), ok.defined h _ (.inr (.inl live)), new c stands]

/-- R25, R29. -/
theorem endCommit (ok : s.ToursMatched) (h : Head) (r : Result) : (endCommit h r s).ToursMatched := by
  obtain ⟨mark, eq⟩ := endCommit_eq h r s
  rw [eq]
  exact (ok.setCommit (o := none) h nofun).of_apart rfl rfl rfl

/-- R34: the banks stand. -/
theorem portReset (ok : s.ToursMatched) : s.portReset.ToursMatched := by
  have dir (h : Head) : s.portReset.dir h = (s.dir h).unanswered := by cases h <;> rfl
  refine ok.rebank rfl rfl (fun h => by rw [dir]; rfl) fun h b bank => ?_
  rw [dir] at bank
  refine ok.defined h b (bank.imp_right (.imp_right fun ⟨c, stands, same⟩ => ?_))
  obtain ⟨c', pending, rfl⟩ := Option.map_eq_some_iff.1 stands
  exact ⟨c', pending, same⟩

/-! ### The application of a bank (R31, R32, R105) -/

/-- R105: CREATE begins at step 0, KEEP and DROP leave what fits the new record. -/
theorem follows_runtimeAfter (ok : s.ToursMatched) (h : Head) (slot : SlotId) {new : Bank}
    (defined : new.BindsDefined s) :
    Follows s (new.slots.get slot) (runtimeAfter s h slot (s.liveTile h slot) (new.slots.get slot)) := by
  unfold runtimeAfter
  cases stands : new.slots.get slot with
  | none => rfl
  | some tile =>
      dsimp only
      cases names : tile.tour with
      | none => exact names
      | some y =>
          dsimp only
          split
          · next kept =>
              have fits := ok.follows h slot
              cases runtime : s.runtime h slot with
              | none =>
                  rw [runtime] at fits
                  exact absurd (fits.symm.trans kept) nofun
              | some r =>
                  rw [runtime] at fits
                  obtain ⟨y', t, named, tour, inTour⟩ := fits
                  cases named.symm.trans kept
                  exact ⟨y, t, names, tour, inTour⟩
          · obtain ⟨t, tour⟩ := Option.isSome_iff_exists.1 (defined slot tile y stands names)
            rw [tour]
            obtain ⟨steps, -⟩ := ok.lengths y t tour
            exact ⟨y, t, names, tour, steps⟩

/-- R26. -/
theorem applyBank (ok : s.ToursMatched) (h : Head) {new : Bank} (newOk : new.BindsDefined s) :
    (applyBank h new s).ToursMatched := by
  obtain ⟨records, ⟨carried, -, -, -, -, others, -⟩, -⟩ :=
    applyBank_spec h new s fun slot => (ok.follows h slot).idle
  generalize Machine.applyBank h new s = u at records carried others
  have tours : u.tours = s.tours := by rw [records]
  have tour (y : TourId) : u.tour y = s.tour y := by rw [State.tour, tours]; rfl
  have dir (j : Head) : u.dir j = (s.setDir h { s.dir h with live := new }).dir j := by
    rw [State.dir, congrArg State.dirs records]; rfl
  refine ⟨fun y z defined => ok.lengths y z ((tour y).symm.trans defined), fun j b bank => ?_,
    fun j slot => ?_⟩
  · refine Bank.BindsDefined.of_tours (s := s) ?_ tours
    rw [dir, State.setDir_dir] at bank
    split at bank
    · obtain working | rfl | pending := bank
      exacts [ok.defined h b (.inl working), newOk, ok.defined h b (.inr (.inr pending))]
    · exact ok.defined j b bank
  · refine Follows.imp (s := s) ?_ fun y _ => tour y
    rw [State.liveTile, dir, State.setDir_dir]
    split
    · next same =>
        subst same
        rw [carried]
        exact ok.follows_runtimeAfter j slot newOk
    · next other =>
        obtain ⟨runtime, -⟩ := others j slot other
        rw [runtime]
        exact ok.follows j slot

/-- R26, R27. -/
theorem applyCommit (ok : s.ToursMatched) (h : Head) (detail : Nat) :
    (applyCommit h detail s).ToursMatched := by
  cases pending : (s.dir h).commit with
  | none => rwa [applyCommit_none pending]
  | some c =>
      rw [applyCommit_some pending]
      have ended : (s.setDir h (s.dir h).ended).ToursMatched := ok.setCommit (o := none) h nofun
      have bound : c.bank.BindsDefined s := ok.defined h _ (.inr (.inr ⟨c, pending, rfl⟩))
      exact (ended.applyBank h (bound.of_tours rfl)).of_apart rfl rfl rfl

theorem completeStop (ok : s.ToursMatched) (h : Head) : (completeStop h s).ToursMatched := by
  rw [completeStop_eq]
  have stopped : (s.setHead h (s.head h).stopCompleted).ToursMatched := ok.of_apart rfl rfl rfl
  exact stopped.applyCommit h 0

/-! ### Changes of the tours (R101 to R103) -/

/-- A tour that no bank binds is defined or emptied. -/
theorem setUnbound (ok : s.ToursMatched) {y : TourId} {o : Option Tour}
    (unbound : ∀ h b, (s.dir h).HasBank b → b.Unbound y)
    (steps : ∀ z, o = some z → 1 ≤ z.steps.length ∧ z.steps.length ≤ 12) :
    (s.setTour y o).ToursMatched := by
  refine ⟨fun x z defined => ?_, fun h b bank => ?_, fun h slot => ?_⟩
  · rw [State.setTour_tour] at defined
    split at defined
    · exact steps z defined
    · exact ok.lengths x z defined
  · refine (ok.defined h b bank).imp fun x bound defined => ?_
    have other : x ≠ y := by
      rintro rfl
      exact bound (unbound h b bank)
    rwa [State.setTour_tour, if_neg other]
  · refine (ok.follows h slot).imp fun x names => ?_
    obtain ⟨tile, stands, named⟩ := Option.bind_eq_some_iff.1 names
    rw [State.setTour_tour, if_neg]
    rintro rfl
    exact unbound h _ (.inr (.inl rfl)) slot tile stands named

/-- R100: an EMPTY tour is bound by no bank. -/
theorem unbound_of_empty (ok : s.ToursMatched) {y : TourId} (empty : s.tour y = none) :
    ∀ h b, (s.dir h).HasBank b → b.Unbound y := fun h b bank slot tile stands names => by
  have defined := ok.defined h b bank slot tile y stands names
  rw [empty] at defined
  exact absurd defined nofun

/-- R102: every runtime bound to the tour stands at step 0 of the new list. -/
theorem redefineTour (ok : s.ToursMatched) {y : TourId} {z : Tour}
    (steps : 1 ≤ z.steps.length ∧ z.steps.length ≤ 12) :
    State.ToursMatched { s.setTour y (some z) with
      runtimes := { ofA := .ofFn (restartedRuntime s y z .a)
                    ofB := .ofFn (restartedRuntime s y z .b) } } := by
  refine ⟨fun x w defined => ?_, fun h b bank => ?_, fun h slot => ?_⟩
  · change (s.setTour y (some z)).tour x = some w at defined
    rw [State.setTour_tour] at defined
    split at defined
    · cases defined; exact steps
    · exact ok.lengths x w defined
  · refine (ok.defined h b bank).imp fun x _ defined => ?_
    change ((s.setTour y (some z)).tour x).isSome = true
    rw [State.setTour_tour]
    split
    · rfl
    · exact defined
  · have restarted : Follows (s.setTour y (some z)) (s.liveTile h slot) (restartedRuntime s y z h slot) := by
      rw [restartedRuntime_eq]
      have fits := ok.follows h slot
      by_cases bound : (s.liveTile h slot).bind (fun tile => tile.tour) = some y
      · cases runtime : s.runtime h slot with
        | none => rw [runtime] at fits; exact fits
        | some r =>
            rw [Option.map_some, if_pos bound]
            exact ⟨y, z, bound, State.setTour_tour_same .., steps.1⟩
      · refine (fits.imp fun x names => ?_).map fun r => by rw [if_neg bound]
        rw [State.setTour_tour, if_neg]
        rintro rfl
        exact bound names
    rw [← restartedRuntimes_get] at restarted
    exact restarted

/-! ### Changes of the runtimes (R106 to R112) -/

/-- A runtime moves within its tour. -/
theorem setRuntime (ok : s.ToursMatched) {h : Head} {slot : SlotId} {z : Tour} {r r' : Runtime}
    (touring : s.touring h slot = some (z, r)) (inTour : r'.step < z.steps.length) :
    (s.setRuntime h slot (some r')).ToursMatched := by
  obtain ⟨tile, y, live, names, tour, -⟩ := touring_eq_some.1 touring
  refine ⟨ok.lengths, ok.defined, fun j k => ?_⟩
  rw [State.setRuntime_runtime]
  split
  · next here =>
      obtain ⟨rfl, rfl⟩ := here
      exact ⟨y, z, by rw [State.setRuntime_liveTile, live]; exact names, tour, inTour⟩
  · exact ok.follows j k

theorem touring_steps (ok : s.ToursMatched) {h : Head} {slot : SlotId} {z : Tour} {r : Runtime}
    (touring : s.touring h slot = some (z, r)) : 1 ≤ z.steps.length :=
  Nat.one_le_of_lt (ok.touring_step touring)

/-- R107 to R109. -/
theorem advanceRuntime (ok : s.ToursMatched) {h : Head} {slot : SlotId} {z : Tour} {r : Runtime}
    (touring : s.touring h slot = some (z, r)) : (advanceRuntime h slot z r s).ToursMatched := by
  have next := decideStep_nextStep s z r.step
  have moved : (s.setRuntime h slot (some (r.atStep z (s.decideStep z r.step).1))).ToursMatched :=
    ok.setRuntime touring (next.lt (ok.touring_steps touring))
  unfold Machine.advanceRuntime
  dsimp only
  split
  · exact moved.of_apart rfl rfl rfl
  · exact moved

/-- R112. -/
theorem controlRuntime (ok : s.ToursMatched) (act : TourAction) {h : Head} {slot : SlotId} {z : Tour}
    {r : Runtime} (touring : s.touring h slot = some (z, r)) :
    (controlRuntime act h slot z r s).ToursMatched := by
  have inTour := ok.touring_step touring
  cases act with
  | hold => exact ok.setRuntime touring inTour
  | resume => exact ok.setRuntime touring inTour
  | next => exact ok.advanceRuntime touring
  | restart => exact ok.setRuntime touring (ok.touring_steps touring)

/-- R106: a millisecond leaves every runtime at its step. -/
theorem countDown (ok : s.ToursMatched) : (countDown s).ToursMatched := by
  refine ⟨ok.lengths, ok.defined, fun h slot => ?_⟩
  rw [countDown_runtime]
  exact (ok.follows h slot).map fun r => by split <;> rfl

theorem tick (ok : s.ToursMatched) : (tick s).ToursMatched := ok.countDown.alarm (tick_alarmFrame s)

theorem reset : State.reset.ToursMatched := by
  have dir (h : Head) : State.reset.dir h = .reset := PerHead.get_both _ _
  have tour (y : TourId) : State.reset.tour y = none := Table.get_fill _ y
  refine ⟨fun y z defined => absurd ((tour y).symm.trans defined) nofun, fun h b bank => ?_,
    fun h slot => ?_⟩
  · rw [dir] at bank
    obtain rfl | rfl | ⟨c, stands, -⟩ := bank
    exacts [.empty _, .empty _, absurd stands nofun]
  · have tile : State.reset.liveTile h slot = none := by
      rw [State.liveTile, dir]
      exact Table.get_fill _ slot
    have runtime : State.reset.runtime h slot = none := by cases h <;> exact Table.get_fill _ slot
    rw [tile, runtime]
    rfl

end State.ToursMatched

/-! ### Every step -/

/-- What a ring command's effect does to the tours, their bindings and their runtimes. -/
theorem RingEffect.toursMatched {s u : State} (e : RingEffect s u) (ok : s.ToursMatched) :
    u.ToursMatched := by
  have working (hd : Head) : (s.dir hd).working.BindsDefined s := ok.defined hd _ (.inl rfl)
  have same {t : State} (tours : t.tours = s.tours) (dirs : t.dirs = s.dirs)
      (runtimes : t.runtimes = s.runtimes) : t.ToursMatched := ok.of_apart tours dirs runtimes
  cases e with
  | place hd k t rank _ _ _ bound =>
      exact ok.setWorking hd ((working hd).set k (tourEmpty_eq_false_iff.1 bound) _)
  | modify hd k old groups tile stands _ bound =>
      exact ok.setWorking hd ((working hd).set k (replaced_tourIsDefined (working hd) stands bound) _)
  | restack hd => exact ok.setWorking hd (working hd)
  | retire hd k => exact ok.setWorking hd ((working hd).retire k)
  | clear hd => exact ok.setWorking hd (.empty s)
  | revert hd => exact ok.setWorking hd (ok.defined hd _ (.inr (.inl rfl)))
  | commitNow hd =>
      obtain ⟨mark, eq⟩ := endCommit_eq hd .superseded s
      exact (ok.endCommit hd _).applyBank hd ((working hd).of_tours (by rw [eq]; rfl))
  | commitLater hd =>
      obtain ⟨mark, eq⟩ := endCommit_eq hd .superseded s
      refine (ok.endCommit hd _).setCommit hd fun c new => ?_
      cases new
      exact (working hd).of_tours (by rw [eq]; rfl)
  | cancel hd => exact ok.endCommit hd _
  | startHead => exact same rfl rfl rfl
  | stopInFrame => exact same rfl rfl rfl
  | stopNow hd => exact ok.completeStop hd
  | nothing => exact ok
  | colour => exact same rfl rfl rfl
  | background => exact same rfl rfl rfl
  | configure i => exact ok.video (((VideoFrame.refl s).setPage i _).changeSource i _)
  | disable i => exact ok.video (((VideoFrame.refl s).setPage i _).changeSource i _)
  | lockParams => exact same rfl rfl rfl
  | masks => exact same rfl rfl rfl
  | defineTour y t steps empty =>
      exact ok.setUnbound (ok.unbound_of_empty empty) fun z new => by cases new; exact steps
  | redefineTour y t old steps => exact ok.redefineTour steps
  | retireTour y unbound => exact ok.setUnbound (State.bindings_eq_zero.1 unbound) nofun
  | control act hd k t r touring => exact ok.controlRuntime act touring
  | line l r => exact ok.alarm (lineSet_alarmFrame l r s)
  | rule n => exact (ok.alarm (removeEntryOf_alarmFrame n s)).of_apart rfl rfl rfl
  | trigger n r u position stands fires =>
      have frame := fire_alarmFrame .software n r s
      rw [fires] at frame
      exact ok.alarm frame
  | clearEntries => exact ok.alarm ((AlarmFrame.refl s).replaceList _ _ _)

/-- Each event of the part. -/
theorem ExecEffect.toursMatched {s t : State} (e : ExecEffect s t) (ok : s.ToursMatched) :
    t.ToursMatched := by
  cases e with
  | command p q effect =>
      have before : (s.setPort p).ToursMatched := ok.of_apart rfl rfl rfl
      exact (effect.toursMatched before).of_apart rfl rfl rfl
  | port => exact ok.of_apart rfl rfl rfl
  | portReset => exact ok.portReset.of_apart rfl rfl rfl
  | resultWrite => exact ok.of_apart rfl rfl rfl
  | frameStart h => exact (ok.applyCommit h _).of_apart rfl rfl rfl
  | frameEnd h => exact ok.of_apart rfl rfl rfl
  | lastFrameEnd h => exact (ok.completeStop h).of_apart rfl rfl rfl
  | timingCodes p i owns codes => exact ok.video (takeCodes_videoFrame i codes s)
  | lossExpiry i => exact ok.video (((VideoFrame.refl s).setPage i _).changeSource i _)
  | dwellExpiry h slot t r touring => exact ok.advanceRuntime touring
  | pin => exact ok.of_apart rfl rfl rfl
  | sample l =>
      exact ok.alarm (((AlarmFrame.refl s).setLine l _).trans (takeSample_alarmFrame l _))
  | debounceExpiry l => exact ok.alarm (lineCompares_alarmFrame l s)
  | holdExpiry => exact ok.alarm ((AlarmFrame.refl s).replaceList _ _ _)
  | deviceReset => exact State.ToursMatched.reset.of_apart rfl rfl rfl

/-- Settles O59: the queue leaves the tours, a millisecond leaves every runtime at its step, and every
command keeps the runtimes matched to the LIVE banks. -/
theorem everyStepKeepsTourRuntimes : Obligations.EveryStepKeepsTourRuntimes := fun _ _ ok run =>
  State.toursOk_iff.2 (step_keeps (P := State.ToursMatched) (fun _ _ ok => ok.of_apart rfl rfl rfl)
    (fun _ ok => ok.tick) (fun _ _ effect ok => effect.toursMatched ok) (State.toursOk_iff.1 ok) run)

end Sys2Proof.Machine
end

section
/-! PROOF. The commands and the dwell expiry of the tours (O30 to O32): TOUR_SET, TOUR_RETIRE, TOUR_CONTROL
and DWELL_EXPIRY. -/

namespace Sys2Proof.Machine

/-! ### TOUR_SET (R101, R102) -/

/-- The operands of a TOUR_SET that carries the tour; the entries after its steps are not read. -/
def codeTour (y : TourId) (tour : Tour) (rest : List (Nat × Nat)) : TourArgs :=
  { tour := y.val, count := tour.steps.length, skipLost := codeYesNo tour.skipLost
    steps := tour.steps.map codeStep ++ rest }

theorem parseTour_code {y : TourId} {tour : Tour} {rest : List (Nat × Nat)}
    (length : 1 ≤ tour.steps.length ∧ tour.steps.length ≤ 12)
    (dwells : ∀ st ∈ tour.steps, 1 ≤ st.dwell ∧ st.dwell ≤ 255) :
    parseTour (codeTour y tour rest) = some tour := by
  have read : (tour.steps.map codeStep ++ rest).take tour.steps.length = tour.steps.map codeStep :=
    List.take_left' (List.length_map _)
  have skip : parseYesNo (codeYesNo tour.skipLost) = some tour.skipLost := parseYesNo_eq.2 rfl
  simp only [parseTour, codeTour, read, skip, parseSteps_code dwells, length, and_self, if_true]

/-- R102: the runtimes after a TOUR_SET: those bound to a tour that was DEFINED are restarted. -/
def runtimesAfterSet (s : State) (y : TourId) (tour : Tour) : PerHead (Table 32 (Option Runtime)) :=
  if (s.tour y).isSome then
    { ofA := .ofFn (restartedRuntime s y tour .a), ofB := .ofFn (restartedRuntime s y tour .b) }
  else s.runtimes

section
variable {h : Header} {y : TourId} {s : State}

/-- R101, R102, past step 1. -/
theorem tourSet_eq {a : TourArgs} {tour : Tour} (clean : h.clean = true) (named : parseFin 8 a.tour = some y)
    (carried : parseTour a = some tour) :
    tourSet h a s = ({ s.setTour y (some tour) with runtimes := runtimesAfterSet s y tour },
      .done .ok (if (s.tour y).isSome then runtimesOf s y else 0)) := by
  simp only [tourSet, named, carried, clean, Bool.not_true, Bool.false_eq_true, if_false, runtimesAfterSet]
  cases s.tour y <;> rfl

theorem exec_tourSet {tour : Tour} {rest : List (Nat × Nat)} (ready : s.Ready) (clean : h.clean = true)
    (length : 1 ≤ tour.steps.length ∧ tour.steps.length ≤ 12)
    (dwells : ∀ st ∈ tour.steps, 1 ≤ st.dwell ∧ st.dwell ≤ 255) :
    exec (.tourSet h (codeTour y tour rest)) s = .next (State.afterCommand
      { s.setTour y (some tour) with runtimes := runtimesAfterSet s y tour }
      (answers h 0x40 .ok (if (s.tour y).isSome then runtimesOf s y else 0))) :=
  congrArg _ (arrive_ok ready
    (tourSet_eq (s := s.taken) clean (parseFin_val y) (parseTour_code length dwells)) rfl)

/-- R102: how many runtimes a TOUR_SET restarts. -/
theorem runtimesOf_eq : runtimesOf s y = ([Head.a, Head.b].map (fun hd => (List.finRange 32).countP
    (fun slot => ((s.liveTile hd slot).bind (fun tile => tile.tour) = some y : Bool)
      && (s.runtime hd slot).isSome))).sum := by
  have bound (hd : Head) : bindsRuntime s y hd = fun slot =>
      ((s.liveTile hd slot).bind (fun tile => tile.tour) = some y : Bool) && (s.runtime hd slot).isSome :=
    funext (bindsRuntime_eq s y hd)
  rw [runtimesOf, bound, bound]
  rfl

/-! ### TOUR_RETIRE (R103) -/

/-- Past step 1. -/
theorem tourRetire_eq (clean : h.clean = true) : tourRetire h y.val s =
    if 1 ≤ s.bindings y then refuse s .tourInUse (s.bindings y)
    else (s.setTour y none, .done .ok (if (s.tour y).isSome then 1 else 0)) := by
  simp only [tourRetire, parseFin_val, clean, Bool.not_true, Bool.false_eq_true, if_false]

theorem exec_tourRetire_bound (ready : s.Ready) (clean : h.clean = true) (bound : 1 ≤ s.bindings y) :
    exec (.tourRetire h y.val) s = .next (s.afterCommand (answers h 0x41 .tourInUse (s.bindings y))) :=
  congrArg _ (arrive_refused ready ((tourRetire_eq (s := s.taken) clean).trans (if_pos bound)))

theorem exec_tourRetire_unbound (ready : s.Ready) (clean : h.clean = true) (unbound : s.bindings y = 0) :
    exec (.tourRetire h y.val) s = .next ((s.setTour y none).afterCommand
      (answers h 0x41 .ok (if (s.tour y).isSome then 1 else 0))) := by
  have free : ¬ 1 ≤ s.taken.bindings y := Nat.not_le_of_lt (Nat.lt_one_iff.2 unbound)
  exact congrArg _ (arrive_ok ready ((tourRetire_eq (s := s.taken) clean).trans (if_neg free)) rfl)

end

/-- Settles O30, command by command; the operands outside their ranges are O10's. -/
theorem tourSetAndRetire : Obligations.TourSetAndRetire := by
  intro h y s ready clean
  refine ⟨fun tour rest least most dwells => ?_, exec_tourRetire_bound ready clean,
    exec_tourRetire_unbound ready clean, State.bindings_eq_zero, fun h' =>
    ⟨fun a malformed => ?_, fun tour malformed => ?_⟩⟩
  · refine ⟨_, _, exec_tourSet ready clean ⟨least, most⟩ dwells, rfl, fun empty => ?_, fun defined => ?_⟩
    · simp [empty, runtimesAfterSet, State.afterCommand]
    · refine ⟨by rw [if_pos defined, runtimesOf_eq], fun hd slot => ?_⟩
      show ((runtimesAfterSet s y tour).get hd).get slot = _
      rw [runtimesAfterSet, if_pos defined, restartedRuntimes_get, restartedRuntime_eq]
      rfl
  · exact operandOutOfRangeRefused _ h' 0x40 s rfl rfl nofun ready malformed
  · exact operandOutOfRangeRefused _ h' 0x41 s rfl rfl nofun ready
      (malformed.imp_right fun high => decide_eq_false (Nat.not_lt_of_le high))

/-! ### TOUR_CONTROL (R111, R112) -/

section
variable {h : Header} {hd : Head} {k : SlotId} {act : TourAction} {s : State}

theorem touring_eq_none {tile : Tile} (live : s.liveTile hd k = some tile) (untoured : tile.tour = none) :
    s.touring hd k = none := by
  simp only [State.touring, live, untoured, Option.bind_none]

theorem tourControl_free (clean : h.clean = true) (free : s.liveTile hd k = none) :
    tourControl h (codeHead hd) k.val (codeAction act) s = refuse s .slotFree := by
  have action : parseAction (codeAction act) = some act := parseAction_eq.2 rfl
  simp only [tourControl, parseHead_code, parseFin_val, action, clean, free, Bool.not_true,
    Bool.false_eq_true, if_false, Option.isNone_none, if_true]

theorem tourControl_untoured {tile : Tile} (clean : h.clean = true) (live : s.liveTile hd k = some tile)
    (untoured : tile.tour = none) :
    tourControl h (codeHead hd) k.val (codeAction act) s = refuse s .notTouring := by
  have action : parseAction (codeAction act) = some act := parseAction_eq.2 rfl
  simp only [tourControl, parseHead_code, parseFin_val, action, clean, live, touring_eq_none live untoured,
    Bool.not_true, Bool.false_eq_true, if_false, Option.isNone_some]

theorem tourControl_touring {t : Tour} {r : Runtime} (clean : h.clean = true)
    (touring : s.touring hd k = some (t, r)) :
    tourControl h (codeHead hd) k.val (codeAction act) s =
      (controlRuntime act hd k t r s, .done .ok (controlledStep act t r s)) := by
  obtain ⟨tile, y, live, -⟩ := touring_eq_some.1 touring
  have action : parseAction (codeAction act) = some act := parseAction_eq.2 rfl
  simp only [tourControl, parseHead_code, parseFin_val, action, clean, live, touring, Bool.not_true,
    Bool.false_eq_true, if_false, Option.isNone_some]

/-- The action reads and changes the port's cause NOTICE alone. -/
theorem controlRuntime_taken (act : TourAction) (hd : Head) (k : SlotId) (t : Tour) (r : Runtime)
    (s : State) : controlRuntime act hd k t r s.taken = (controlRuntime act hd k t r s).setPort
      { s.taken.port with cause := (controlRuntime act hd k t r s).port.cause } := by
  have advanced : advanceRuntime hd k t r s.taken = (advanceRuntime hd k t r s).setPort
      { s.taken.port with cause := (advanceRuntime hd k t r s).port.cause } := by
    have same : s.taken.decideStep t r.step = s.decideStep t r.step := rfl
    unfold advanceRuntime
    rw [same]
    dsimp only
    split <;> rfl
  cases act with
  | hold => rfl
  | resume => rfl
  | next => exact advanced
  | restart => rfl

/-- R112: a touring slot's runtime takes the action. -/
theorem exec_tourControl_touring {t : Tour} {r : Runtime} (ready : s.Ready) (clean : h.clean = true)
    (touring : s.touring hd k = some (t, r)) :
    exec (.tourControl h (codeHead hd) k.val (codeAction act)) s =
      .next ((controlRuntime act hd k t r s).afterCommand
        (answers h 0x42 .ok (controlledStep act t r s))) := by
  have reply := tourControl_touring (act := act) (s := s.taken) clean touring
  rw [controlRuntime_taken] at reply
  have run := arrive_done (i := .tourControl h (codeHead hd) k.val (codeAction act)) (h := h) (code := 0x42)
    (pre := []) (c := (controlRuntime act hd k t r s).port.cause) (m := s.port.mark) ready reply
    (by rw [List.append_nil]; rfl)
  have port : (controlRuntime act hd k t r s).port =
      { s.port with cause := (controlRuntime act hd k t r s).port.cause } := by
    rw [(controlRuntime_tourFrame act hd k t r s).port]
    rfl
  refine congrArg Host.Outcome.next (run.trans ?_)
  rw [← port]
  rfl

end

/-- R104: the tour and the runtime of a LIVE slot that binds a tour. -/
theorem State.ToursOk.touring {s : State} (ok : s.ToursOk) {hd : Head} {k : SlotId} {tile : Tile} {y : TourId}
    (live : s.liveTile hd k = some tile) (names : tile.tour = some y) :
    ∃ t r, s.tour y = some t ∧ s.runtime hd k = some r ∧ s.touring hd k = some (t, r) := by
  obtain ⟨-, banks, runtimes, -⟩ := ok
  obtain ⟨-, liveDefined, -⟩ := banks hd
  obtain ⟨t, tour⟩ := Option.isSome_iff_exists.1 (liveDefined k tile y live names)
  obtain ⟨r, runtime⟩ := Option.isSome_iff_exists.1 ((runtimes hd k).2 ⟨tile, y, live, names⟩)
  exact ⟨t, r, tour, runtime, touring_eq_some.2 ⟨tile, y, live, names, tour, runtime⟩⟩

/-- Settles O31, by the slot and, on a touring one, by the action. -/
theorem tourControlActs : Obligations.TourControlActs := by
  intro h hd k act s ready clean tours
  refine ⟨fun free => congrArg _ (arrive_refused ready (tourControl_free clean free)),
    fun tile live untoured => congrArg _ (arrive_refused ready (tourControl_untoured clean live untoured)),
    fun tile y live names => ?_⟩
  obtain ⟨t, r, tour, runtime, touring⟩ := tours.touring live names
  have run (act : TourAction) := exec_tourControl_touring (act := act) ready clean touring
  refine ⟨t, r, tour, runtime, ?_, ?_, ?_, ?_⟩
  · rintro rfl; exact run .hold
  · rintro rfl; exact run .resume
  · rintro rfl; exact run .restart
  · rintro rfl; exact ⟨_, _, decideStep_nextStep s t r.step, run .next⟩

/-! ### DWELL_EXPIRY (R106, R107) -/

theorem exec_dwellExpiry_touring {hd : Head} {k : SlotId} {s : State} {t : Tour} {r : Runtime}
    (touring : s.touring hd k = some (t, r)) : exec (.dwellExpiry hd k) s = .next
      (if r.state = .running ∧ (s.head hd).state ≠ .stopped ∧ s.list hd k = [] ∧ r.remaining = 0
        then advanceRuntime hd k t r s else s) := by
  show execDwellExpiry hd k s = _
  rw [execDwellExpiry, touring]

/-- Settles O32, by whether the runtime counts and has time left. -/
theorem dwellExpiryMovesTheRuntime : Obligations.DwellExpiryMovesTheRuntime := by
  intro hd k s _
  refine ⟨fun t r touring running drawing empty elapsed => ?_, fun t r touring stands => ?_,
    fun none_touring => ?_⟩
  · refine ⟨_, _, decideStep_nextStep s t r.step, ?_⟩
    rw [exec_dwellExpiry_touring touring, if_pos ⟨running, drawing, empty, elapsed⟩, advanceRuntime_eq]
  · rw [exec_dwellExpiry_touring touring, if_neg]
    rintro ⟨running, drawing, empty, elapsed⟩
    obtain held | stopped | called | left := stands
    exacts [absurd (held.symm.trans running) nofun, drawing stopped, called empty, left elapsed]
  · show execDwellExpiry hd k s = _
    rw [execDwellExpiry, none_touring]

end Sys2Proof.Machine
end

section
/-! PROOF. The alarm side on another port: of the port, the operations on lines, rules and call-up lists read
and change cause NOTICE alone. So what such a command does in the state its fetch leaves is what it does in
the state before, on the port as fetched. -/

namespace Sys2Proof.Machine

/-- The state on port `p`, which takes over cause NOTICE of the port that was there. -/
def State.onPort (s : State) (p : Port) : State := s.setPort (noticePort p s.port)

theorem State.taken_eq_onPort (s : State) : s.taken = s.onPort s.taken.port := rfl

section
variable (s : State) (p : Port)

@[simp] theorem onPort_rule (n : RuleId) : (s.onPort p).rule n = s.rule n := rfl
@[simp] theorem onPort_line (l : LineId) : (s.onPort p).line l = s.line l := rfl
@[simp] theorem onPort_list (h : Head) (slot : SlotId) : (s.onPort p).list h slot = s.list h slot := rfl
@[simp] theorem onPort_liveTile (h : Head) (slot : SlotId) :
    (s.onPort p).liveTile h slot = s.liveTile h slot := rfl
@[simp] theorem onPort_arrival : (s.onPort p).arrival = s.arrival := rfl
@[simp] theorem onPort_triggerActive (r : Rule) : (s.onPort p).triggerActive r = s.triggerActive r := rfl

@[simp] theorem onPort_setLine (l : LineId) (r : LineRecord) :
    (s.onPort p).setLine l r = (s.setLine l r).onPort p := rfl

@[simp] theorem onPort_setRule (n : RuleId) (r : Option Rule) :
    (s.onPort p).setRule n r = (s.setRule n r).onPort p := rfl

theorem onPort_replaceList (h : Head) (slot : SlotId) (l : List Entry) :
    (s.onPort p).replaceList h slot l = (s.replaceList h slot l).onPort p := by
  unfold State.replaceList
  rw [onPort_list]
  split <;> rfl

theorem onPort_raiseEvicted (e : Option Entry) :
    (s.onPort p).raiseEvicted e = (s.raiseEvicted e).onPort p := by
  cases e <;> rfl

theorem onPort_removeEntryOf (n : RuleId) :
    removeEntryOf n (s.onPort p) = ((removeEntryOf n s).1.onPort p, (removeEntryOf n s).2) := by
  unfold removeEntryOf
  rw [onPort_rule]
  split
  · dsimp only
    rw [onPort_list, onPort_replaceList]
  · rfl

theorem onPort_fire (c : FireCause) (n : RuleId) (r : Rule) :
    fire c n r (s.onPort p) = ((fire c n r s).1.onPort p, (fire c n r s).2) := by
  by_cases free : (s.liveTile r.head r.slot).isNone = true
  · simp only [fire, onPort_liveTile, free, if_true]
  by_cases stands : (s.list r.head r.slot).any (fun e => e.rule = n) = true
  · simp only [fire, onPort_liveTile, onPort_list, onPort_triggerActive, free, stands, if_true, if_false,
      Bool.false_eq_true]
    rfl
  simp only [fire, onPort_liveTile, onPort_list, onPort_triggerActive, onPort_arrival, free, stands,
    if_false, Bool.false_eq_true]
  split
  · rfl
  · next l' evicted _ =>
      have counted : { s.onPort p with arrival := s.arrival + 1 }
          = State.onPort { s with arrival := s.arrival + 1 } p := rfl
      rw [counted, onPort_raiseEvicted, onPort_replaceList]

theorem onPort_fireByLine (n : RuleId) (r : Rule) :
    fireByLine n r (s.onPort p) = (fireByLine n r s).onPort p := by
  unfold fireByLine
  rw [onPort_fire]
  obtain ⟨t, fired⟩ := fire .line n r s
  cases fired <;> rfl

theorem onPort_assertionTurn (l : LineId) (n : RuleId) :
    assertionTurn l (s.onPort p) n = (assertionTurn l s n).onPort p := by
  unfold assertionTurn
  rw [onPort_rule]
  split
  · split
    · exact onPort_fireByLine s p n _
    · rfl
  · rfl

theorem onPort_releaseTurn (l : LineId) (n : RuleId) :
    releaseTurn l (s.onPort p) n = (releaseTurn l s n).onPort p := by
  unfold releaseTurn
  rw [onPort_rule]
  split
  · split
    · exact onPort_replaceList s p _ _ _
    · rfl
  · rfl

theorem lineAsserts_eq (l : LineId) (s : State) :
    lineAsserts l s = (List.finRange 32).foldl (assertionTurn l) s := rfl

theorem onPort_lineAsserts (l : LineId) : lineAsserts l (s.onPort p) = (lineAsserts l s).onPort p := by
  rw [lineAsserts_eq, lineAsserts_eq]
  exact List.foldl_hom (State.onPort · p) fun t n => onPort_assertionTurn t p l n

theorem onPort_lineReleases (l : LineId) : lineReleases l (s.onPort p) = (lineReleases l s).onPort p := by
  rw [lineReleases_eq, lineReleases_eq]
  exact List.foldl_hom (State.onPort · p) fun t n => onPort_releaseTurn t p l n

theorem onPort_lineCompares (l : LineId) : lineCompares l (s.onPort p) = (lineCompares l s).onPort p := by
  unfold lineCompares
  dsimp only [onPort_line, onPort_setLine]
  split
  · exact onPort_lineAsserts _ p l
  · exact onPort_lineReleases _ p l
  · rfl
  · rfl

theorem onPort_startDebounce (l : LineId) :
    startDebounce l (s.onPort p) = (startDebounce l s).onPort p := by
  by_cases zero : (s.line l).debounce = 0
  · rw [startDebounce_at_once l s zero, startDebounce_at_once l (s.onPort p) zero, onPort_lineCompares]
  · rw [startDebounce_counts l s zero, startDebounce_counts l (s.onPort p) zero]
    rfl

theorem onPort_endAlarm (l : LineId) : endAlarm l (s.onPort p) = (endAlarm l s).onPort p := by
  by_cases active : (s.line l).state = .active
  · simp only [endAlarm, onPort_line, active, if_true, onPort_lineReleases, onPort_setLine]
  · simp only [endAlarm, onPort_line, active, if_false]

end

/-- What a command leaves that is answered OK at once and has raised notices, and no more, in the port: `u`
is what it makes of the state before its fetch. -/
theorem arrive_noticing {i : Instr} {h : Header} {code : Nat} {block : State → Reply} {s u : State} {d : Nat}
    (ready : s.Ready) (reply : block s.taken = (u.onPort s.taken.port, .done .ok d))
    (port : u.port = noticePort s.port u.port) :
    arrive i (answering h code block) s = u.afterCommand (answers h code .ok d) := by
  rw [arrive_done (pre := []) (c := (noticePort s.port u.port).cause) (m := s.port.mark) ready reply
    (by rw [List.append_nil]; rfl)]
  have whole : u.setPort (noticePort s.port u.port) = u := by rw [← port]; rfl
  exact congrArg (State.afterCommand · (answers h code .ok d)) whole

end Sys2Proof.Machine
end

section
/-! PROOF. The alarm lines and the rules (O33 to O35): LINE_SET, LEVEL_CHANGE, DEBOUNCE_EXPIRY, RULE_SET and
RULE_RETIRE. -/

namespace Sys2Proof.Machine

/-! ### LINE_SET (R117, R118, R120) -/

/-- R120 step 1: a standing alarm's release is delivered; the line itself is as it was. -/
def alarmReleased (l : LineId) (s : State) : State :=
  if (s.line l).state = .active then lineReleases l s else s

theorem Released.line {l : LineId} {s t : State} (released : Released l s t) (j : LineId) :
    t.line j = s.line j := by
  obtain ⟨frame, -⟩ := released
  have lines : t.lines = s.lines := (congrArg State.lines frame).trans rfl
  rw [State.line, lines, State.line]

theorem endAlarm_eq (l : LineId) (s : State) :
    endAlarm l s = (alarmReleased l s).setLine l { s.line l with state := .idle } := by
  have line := (lineReleases_released l s).line l
  cases state : (s.line l).state with
  | active => simp only [endAlarm, alarmReleased, state, if_true, line]
  | idle =>
      simp only [endAlarm, alarmReleased, state, reduceCtorEq, if_false]
      rw [← state, State.setLine_self]

/-- R120 steps 1 to 3: the line IDLE with its timer stopped, in its new configuration. -/
def LineRecord.configured (r : LineRecord) (en : Bool) (pol : Polarity) (debounce : Nat) : LineRecord :=
  { r with enabled := en, polarity := pol, debounce, state := .idle, timer := none }

/-- R120: the alarm ended, the record `r` taken, and its debounce time begun where the line is enabled. -/
def reconfigured (l : LineId) (r : LineRecord) (s : State) : State :=
  if r.enabled then startDebounce l ((alarmReleased l s).setLine l r) else (alarmReleased l s).setLine l r

section
variable {h : Header} {l : LineId} {en : Bool} {pol : Polarity} {debounce : Nat} {s : State}

theorem reconfigured_eq (r : LineRecord) : reconfigured l r s =
    if r.enabled then startDebounce l ((endAlarm l s).setLine l r) else (endAlarm l s).setLine l r := by
  rw [endAlarm_eq, State.setLine_twice]
  rfl

theorem onPort_reconfigured (r : LineRecord) (p : Port) :
    reconfigured l r (s.onPort p) = (reconfigured l r s).onPort p := by
  simp only [reconfigured_eq, onPort_endAlarm, onPort_setLine, onPort_startDebounce]
  split <;> rfl

/-- R120, past the checks. -/
theorem lineSet_eq (clean : h.clean = true) (short : debounce ≤ 255) :
    lineSet h l.val (codeYesNo en) (codePolarity pol) debounce s =
      (reconfigured l ((s.line l).configured en pol debounce) s,
        .done .ok (if (s.line l).state = .active then 1 else 0)) := by
  have enabled : parseYesNo (codeYesNo en) = some en := parseYesNo_eq.2 rfl
  have polarity : parsePolarity (codePolarity pol) = some pol := parsePolarity_eq.2 rfl
  have ended : (endAlarm l s).line l = { s.line l with state := .idle } := by
    rw [endAlarm_eq, State.setLine_line_same]
  simp only [lineSet, parseFin_val, enabled, polarity, clean, short, ended, reconfigured_eq, Bool.not_true,
    decide_true, Bool.or_self, Bool.false_eq_true, if_false]
  rfl

theorem exec_lineSet (ready : s.Ready) (clean : h.clean = true) (short : debounce ≤ 255) :
    exec (.lineSet h l.val (codeYesNo en) (codePolarity pol) debounce) s = .next
      ((reconfigured l ((s.line l).configured en pol debounce) s).afterCommand
        (answers h 0x50 .ok (if (s.line l).state = .active then 1 else 0))) := by
  have reply := lineSet_eq (h := h) (l := l) (en := en) (pol := pol) (s := s.taken) clean short
  rw [s.taken_eq_onPort, onPort_reconfigured] at reply
  refine congrArg Host.Outcome.next (arrive_noticing ready reply ?_)
  rw [reconfigured_eq]
  exact (lineSet_alarmFrame l _ s).port

/-- R120 step 4: of a line that is not enabled no debounce time begins. -/
theorem reconfigured_disabled {r : LineRecord} (disabled : r.enabled = false) :
    reconfigured l r s = (alarmReleased l s).setLine l r := if_neg (by simp [disabled])

/-- R117: the new debounce time begins. -/
theorem reconfigured_counts {r : LineRecord} (enabled : r.enabled = true) (counts : r.debounce ≠ 0) :
    reconfigured l r s = (alarmReleased l s).setLine l { r with timer := some (r.debounce * 10) } := by
  rw [reconfigured, if_pos enabled, startDebounce_counts _ _ (by rw [State.setLine_line_same]; exact counts),
    State.setLine_line_same, State.setLine_twice]

/-- R117, R118: with debounce 0 the comparison is made at once, of an IDLE line. -/
theorem reconfigured_compares {r : LineRecord} (enabled : r.enabled = true) (zero : r.debounce = 0)
    (idle : r.state = .idle) (stopped : r.timer = none) :
    (activeLevel r.polarity r.rawHigh = false → reconfigured l r s = (alarmReleased l s).setLine l r)
    ∧ (activeLevel r.polarity r.rawHigh = true →
      Asserted l ((alarmReleased l s).setLine l { r with state := .active }) (reconfigured l r s)) := by
  have atOnce : reconfigured l r s = lineCompares l ((alarmReleased l s).setLine l r) := by
    rw [reconfigured, if_pos enabled, startDebounce_at_once _ _ (by rw [State.setLine_line_same]; exact zero)]
  obtain ⟨stays, -, -, asserts⟩ := lineCompares_spec l ((alarmReleased l s).setLine l r)
  rw [State.setLine_line_same, State.setLine_twice] at stays asserts
  rw [atOnce]
  refine ⟨fun low => ?_, fun high => ?_⟩
  · rw [stays idle low, low, ← stopped, if_neg Bool.false_ne_true, ← idle]
  · have asserted := asserts idle high
    rw [high, if_pos rfl, ← stopped] at asserted
    exact asserted

end

/-- Settles O33: the states between are that with the alarm released and that with the line reconfigured, and
the new record stands as it is, counts its debounce time, or is compared at once. -/
theorem lineSetReconfigures : Obligations.LineSetReconfigures := by
  intro h l en pol debounce s ready clean short
  refine ⟨alarmReleased l s, _, exec_lineSet ready clean short, fun idle => if_neg (by simp [idle]),
    fun active => ?_, ?_⟩
  · rw [alarmReleased, if_pos active]
    exact lineReleases_released l s
  cases en with
  | false =>
      rw [reconfigured_disabled rfl]
      simp [LineRecord.configured]
  | true =>
      by_cases zero : debounce = 0
      · obtain ⟨low, high⟩ := reconfigured_compares (l := l) (s := s)
          (r := (s.line l).configured true pol debounce) rfl zero rfl rfl
        simp only [zero, ne_eq, not_true_eq_false, and_false, if_false, true_and, Bool.not_eq_true]
        exact ⟨zero ▸ low, zero ▸ high⟩
      · rw [reconfigured_counts rfl zero]
        simp [LineRecord.configured, zero]

/-! ### LEVEL_CHANGE and DEBOUNCE_EXPIRY (R116 to R119) -/

section
variable {l : LineId} {s : State}

/-- R116: a change beside the line's sample of the millisecond. -/
theorem exec_levelChange_beside (high : Bool) {atSample : Bool}
    (beside : atSample = false ∨ (s.line l).sampled = true) :
    exec (.levelChange l { high, atSample }) s = .next (s.setLine l { s.line l with pinHigh := high }) := by
  have untaken : ¬ (atSample && !(s.line l).sampled) = true := by
    obtain off | taken := beside <;> simp [*]
  exact congrArg Host.Outcome.next (if_neg untaken)

/-- R116: a change at which the sample falls. -/
theorem exec_levelChange_sampled (high : Bool) (due : (s.line l).sampled = false) :
    exec (.levelChange l { high, atSample := true }) s = .next
      (takeSample l (s.setLine l { s.line l with pinHigh := high, sampled := true })) :=
  congrArg Host.Outcome.next (if_pos (by simp [due]))

theorem exec_debounceExpiry_due (enabled : (s.line l).enabled = true) (elapsed : (s.line l).timer = some 0) :
    exec (.debounceExpiry l) s = .next (lineCompares l s) :=
  congrArg Host.Outcome.next (if_pos ⟨enabled, elapsed⟩)

theorem exec_debounceExpiry_idle (idle : (s.line l).enabled = false ∨ (s.line l).timer ≠ some 0) :
    exec (.debounceExpiry l) s = .next s := by
  refine congrArg Host.Outcome.next (if_neg ?_)
  rintro ⟨enabled, elapsed⟩
  obtain disabled | runs := idle
  exacts [absurd (disabled.symm.trans enabled) nofun, runs elapsed]

end

/-- Settles O34, by whether the sample falls at the change and whether the debounce time has elapsed. -/
theorem levelChangeAndDebounceExpiry : Obligations.LevelChangeAndDebounceExpiry := by
  intro l high s
  refine ⟨fun atSample beside => exec_levelChange_beside high beside, fun u moved => ?_,
    fun due => ⟨_, exec_levelChange_sampled high due, takeSample_samples l _⟩,
    exec_debounceExpiry_idle,
    fun enabled elapsed => ⟨_, exec_debounceExpiry_due enabled elapsed, lineCompares_spec l s⟩⟩
  rw [exec_levelChange_beside high (.inl rfl)] at moved
  cases moved
  rw [exec_levelChange_beside _ (.inl rfl), State.setLine_line_same, State.setLine_twice]
  exact congrArg Host.Outcome.next (State.setLine_self s l)

/-! ### RULE_SET and RULE_RETIRE (R124 to R126) -/

section
variable {h : Header} {n : RuleId} {s : State}

/-- R125 step 1 for an EMPTY rule. -/
theorem removeEntryOf_empty (empty : s.rule n = none) : removeEntryOf n s = (s, 0) := by
  rw [removeEntryOf, empty]

/-- R125 step 1 for a DEFINED rule. -/
theorem removeEntryOf_defined {old : Rule} (stands : s.rule n = some old) :
    removeEntryOf n s =
      (s.relisted old.head old.slot ((s.list old.head old.slot).filter (fun e => e.rule ≠ n)),
        (s.list old.head old.slot).countP (fun e => e.rule = n)) := by
  rw [removeEntryOf, stands]
  rfl

/-- A block that removes the rule's entry and gives the rule the record `x`, or makes it EMPTY. -/
theorem arrive_replacesRule {i : Instr} {code : Nat} {block : State → Reply} (x : Option Rule)
    (ready : s.Ready)
    (reply : block s.taken = ((removeEntryOf n s.taken).1.setRule n x, .done .ok (removeEntryOf n s.taken).2)) :
    arrive i (answering h code block) s =
      State.afterCommand { (removeEntryOf n s).1 with rules := s.rules.set n x }
        (answers h code .ok (removeEntryOf n s).2) := by
  have frame := removeEntryOf_alarmFrame n s
  have rules : (removeEntryOf n s).1.rules = s.rules := (congrArg State.rules frame).trans rfl
  rw [s.taken_eq_onPort, onPort_removeEntryOf, onPort_setRule] at reply
  rw [arrive_noticing ready reply frame.port, State.setRule, rules]

theorem exec_ruleSet {r : Rule} (ready : s.Ready) (clean : h.clean = true) (priority : r.priority ≤ 7)
    (hold : r.hold ≤ 255) :
    exec (.ruleSet h (codeRule n r)) s = .next
      (State.afterCommand { (removeEntryOf n s).1 with rules := s.rules.set n (some r) }
        (answers h 0x51 .ok (removeEntryOf n s).2)) := by
  have named : parseFin 32 (codeRule n r).rule = some n := parseFin_val n
  refine congrArg Host.Outcome.next (arrive_replacesRule (some r) ready ?_)
  simp only [ruleSet, named, parseRule_code priority hold, clean, Bool.not_true, Bool.false_eq_true, if_false]

theorem exec_ruleRetire (ready : s.Ready) (clean : h.clean = true) :
    exec (.ruleRetire h n.val) s = .next
      (State.afterCommand { (removeEntryOf n s).1 with rules := s.rules.set n none }
        (answers h 0x52 .ok (removeEntryOf n s).2)) := by
  refine congrArg Host.Outcome.next (arrive_replacesRule none ready ?_)
  simp only [ruleRetire, parseFin_val, clean, Bool.not_true, Bool.false_eq_true, if_false]

end

/-- Settles O35, by whether the rule is EMPTY, and so has no entry to lose, or DEFINED. -/
theorem ruleSetAndRetire : Obligations.RuleSetAndRetire := by
  intro h n r s ready clean priority hold
  have set := exec_ruleSet (n := n) ready clean priority hold
  have retire := exec_ruleRetire (n := n) ready clean
  refine ⟨fun empty => ?_, fun old stands => ?_⟩
  · rw [removeEntryOf_empty empty] at set retire
    exact ⟨set, retire⟩
  · rw [removeEntryOf_defined stands] at set retire
    exact ⟨set, retire⟩

end Sys2Proof.Machine
end

section
/-! PROOF. The call-up lists (R128, R129, O58): the order of entries, the changes of one list that keep it well
formed, the events that reach the lists, the rules or the LIVE banks, and every step. -/

namespace Sys2Proof.Machine

/-! ### The order of entries (R129) -/

namespace Entry
variable {e f g : Entry}

theorem before_iff : e.before f = true ↔
    f.priority < e.priority ∨ e.priority = f.priority ∧ e.arrival.toNat < f.arrival.toNat := by
  simp [Entry.before]

theorem before_asymm (first : e.before f = true) : f.before e = false := by
  rw [← Bool.not_eq_true, before_iff]
  have := before_iff.1 first
  omega

theorem before_trans (first : e.before f = true) (second : f.before g = true) : e.before g = true := by
  rw [before_iff] at *
  omega

/-- No entry sorts before one that stands above it. -/
def Ordered (l : List Entry) : Prop := l.Pairwise fun e f => f.before e = false

end Entry

theorem insertEntry_perm (e : Entry) (l : List Entry) : (insertEntry e l).Perm (e :: l) := by
  induction l with
  | nil => exact .refl _
  | cons f l ih =>
      unfold insertEntry
      split
      · exact .refl _
      · exact (ih.cons f).trans (.swap e f l)

/-- R133: a new entry takes its place in the order. -/
theorem insertEntry_ordered (e : Entry) {l : List Entry} (ordered : Entry.Ordered l) :
    Entry.Ordered (insertEntry e l) := by
  induction l with
  | nil => exact List.pairwise_singleton _ _
  | cons f l ih =>
      obtain ⟨first, rest⟩ := List.pairwise_cons.1 ordered
      unfold insertEntry
      split
      · next before =>
          refine List.pairwise_cons.2 ⟨fun g mem => ?_, ordered⟩
          obtain rfl | below := List.mem_cons.1 mem
          · exact Entry.before_asymm before
          · refine Bool.eq_false_iff.2 fun earlier => ?_
            exact absurd (Entry.before_trans earlier before) (Bool.eq_false_iff.1 (first g below))
      · next after =>
          refine List.pairwise_cons.2 ⟨fun g mem => ?_, ih rest⟩
          obtain rfl | below := List.mem_cons.1 ((insertEntry_perm e l).mem_iff.1 mem)
          · exact Bool.eq_false_iff.2 after
          · exact first g below

/-- R133: what is inserted goes into the list or, where the list is full, into the list without its last
entry. -/
theorem insertCapped_eq_some {e : Entry} {l l' : List Entry} {evicted : Option Entry} (short : l.length ≤ 4)
    (capped : insertCapped e l = some (l', evicted)) :
    ∃ keep : List Entry, keep.Sublist l ∧ keep.length < 4 ∧ l' = insertEntry e keep := by
  unfold insertCapped at capped
  split at capped
  · next room =>
      cases capped
      exact ⟨l, .refl l, room, rfl⟩
  · split at capped
    · next last stands =>
        split at capped
        · cases capped
          have dropped : l.dropLast.length = l.length - 1 := List.length_dropLast
          exact ⟨l.dropLast, List.dropLast_sublist l, by omega, rfl⟩
        · cases capped
    · cases capped

/-! ### One list (R128) -/

/-- R128: the entry is of a DEFINED rule that targets the list, with the rule's priority. -/
def State.Targeted (s : State) (h : Head) (slot : SlotId) (e : Entry) : Prop :=
  ∃ r, s.rule e.rule = some r ∧ r.head = h ∧ r.slot = slot ∧ r.priority = e.priority

/-- What `State.ListsOk` asks of one list. -/
structure State.ListFits (s : State) (h : Head) (slot : SlotId) (l : List Entry) : Prop where
  short : l.length ≤ 4
  once : (l.map Entry.rule).Nodup
  targeted : ∀ e ∈ l, s.Targeted h slot e
  ordered : Entry.Ordered l
  live : l ≠ [] → (s.liveTile h slot).isSome = true

theorem State.listsOk_iff {s : State} : s.ListsOk ↔ ∀ h slot, s.ListFits h slot (s.list h slot) :=
  forall_congr' fun _ => forall_congr' fun _ =>
    ⟨fun ⟨short, once, targeted, ordered, live⟩ => ⟨short, once, targeted, ordered, live⟩,
      fun ⟨short, once, targeted, ordered, live⟩ => ⟨short, once, targeted, ordered, live⟩⟩

theorem State.liveTile_of_dirs {s t : State} (dirs : t.dirs = s.dirs) (h : Head) (slot : SlotId) :
    t.liveTile h slot = s.liveTile h slot := by
  rw [State.liveTile, State.dir, dirs]
  rfl

theorem raiseEvicted_rule (e : Option Entry) (s : State) (n : RuleId) :
    (s.raiseEvicted e).rule n = s.rule n := by cases e <;> rfl

theorem raiseEvicted_liveTile (e : Option Entry) (s : State) (h : Head) (slot : SlotId) :
    (s.raiseEvicted e).liveTile h slot = s.liveTile h slot := by cases e <;> rfl

namespace State.ListFits
variable {s t : State} {h : Head} {slot : SlotId} {l : List Entry}

theorem nil : s.ListFits h slot [] :=
  ⟨Nat.zero_le 4, List.nodup_nil, nofun, List.Pairwise.nil, fun filled => absurd rfl filled⟩

/-- Only the rules of the entries and the LIVE tile under them matter. -/
theorem imp (fits : s.ListFits h slot l) (rules : ∀ e ∈ l, t.rule e.rule = s.rule e.rule)
    (live : l ≠ [] → (s.liveTile h slot).isSome = true → (t.liveTile h slot).isSome = true) :
    t.ListFits h slot l where
  short := fits.short
  once := fits.once
  targeted e mem := by
    obtain ⟨r, stands, target⟩ := fits.targeted e mem
    exact ⟨r, (rules e mem).trans stands, target⟩
  ordered := fits.ordered
  live filled := live filled (fits.live filled)

theorem sublist (fits : s.ListFits h slot l) {l' : List Entry} (sub : l'.Sublist l) : s.ListFits h slot l' where
  short := sub.length_le.trans fits.short
  once := fits.once.sublist (sub.map Entry.rule)
  targeted e mem := fits.targeted e (sub.subset mem)
  ordered := fits.ordered.sublist sub
  live filled := fits.live fun empty => filled (List.sublist_nil.1 (empty ▸ sub))

/-- R131, R135, R136: entries removed, or left with another state. -/
theorem restate (fits : s.ListFits h slot l) {f : Entry → Option Entry}
    (states : ∀ e e', f e = some e' → ∃ st, e' = { e with state := st }) :
    s.ListFits h slot (l.filterMap f) where
  short := (List.length_filterMap_le f l).trans fits.short
  once := by
    refine fits.once.sublist (filterMap_rules_sublist (fun e e' kept => ?_) l)
    obtain ⟨st, rfl⟩ := states e e' kept
    rfl
  targeted e' mem := by
    obtain ⟨e, old, kept⟩ := List.mem_filterMap.1 mem
    obtain ⟨st, rfl⟩ := states e e' kept
    exact fits.targeted e old
  ordered := by
    refine List.Pairwise.filterMap f (fun e g after e' kept g' kept' => ?_) fits.ordered
    obtain ⟨st, rfl⟩ := states e e' kept
    obtain ⟨st', rfl⟩ := states g g' kept'
    exact after
  live filled := fits.live fun empty => filled (by rw [empty, List.filterMap_nil])

theorem restateAll (fits : s.ListFits h slot l) {f : Entry → Entry}
    (states : ∀ e, ∃ st, f e = { e with state := st }) : s.ListFits h slot (l.map f) := by
  rw [← List.filterMap_eq_map]
  refine fits.restate fun e e' kept => ?_
  cases kept
  exact states e

/-- R132, R133: a rule with no entry in the list gets one. -/
theorem insert (fits : s.ListFits h slot l) {e : Entry} (room : l.length < 4)
    (absent : ∀ f ∈ l, f.rule ≠ e.rule) (targeted : s.Targeted h slot e)
    (live : (s.liveTile h slot).isSome = true) : s.ListFits h slot (insertEntry e l) where
  short := (insertEntry_perm e l).length_eq.trans_le room
  once := by
    rw [((insertEntry_perm e l).map Entry.rule).nodup_iff, List.map_cons, List.nodup_cons]
    refine ⟨fun mem => ?_, fits.once⟩
    obtain ⟨f, stands, same⟩ := List.mem_map.1 mem
    exact absent f stands same
  targeted f mem := by
    obtain rfl | old := List.mem_cons.1 ((insertEntry_perm e l).mem_iff.1 mem)
    exacts [targeted, fits.targeted f old]
  ordered := insertEntry_ordered e fits.ordered
  live _ := live

end State.ListFits

/-! ### The application of a bank (R31, R32) -/

section
variable (h : Head) (new : Bank) (s : State)

theorem applyBank_rules : (applyBank h new s).rules = s.rules := by
  rw [applyBank, carryOver_records]
  rfl

theorem applyBank_liveTile (j : Head) (slot : SlotId) :
    (applyBank h new s).liveTile j slot = if j = h then new.slots.get slot else s.liveTile j slot := by
  have dir : (applyBank h new s).dir j = (s.setDir h { s.dir h with live := new }).dir j := by
    rw [applyBank, carryOver_records]
    rfl
  rw [State.liveTile, dir, State.setDir_dir]
  split <;> rfl

/-- R32: the lists of the freed slots are empty, whatever the tours. -/
theorem applyBank_list (j : Head) (slot : SlotId) : (applyBank h new s).list j slot =
    if j = h ∧ freed (s.liveTile h slot) (new.slots.get slot) = true then [] else s.list j slot := by
  rw [applyBank, carryOver_eq, cancelFreed_list]
  simp only [List.mem_finRange, true_and]
  rfl

end

/-! ### The lists -/

namespace State.ListsOk
variable {s t : State}

theorem fits (ok : s.ListsOk) (h : Head) (slot : SlotId) : s.ListFits h slot (s.list h slot) :=
  listsOk_iff.1 ok h slot

/-- The rules and the LIVE tiles stand. -/
theorem of_lists (rules : t.rules = s.rules) (live : ∀ h slot, t.liveTile h slot = s.liveTile h slot)
    (lists : ∀ h slot, s.ListFits h slot (t.list h slot)) : t.ListsOk :=
  listsOk_iff.2 fun h slot =>
    (lists h slot).imp (fun _ _ => by rw [State.rule, rules]; rfl) fun _ stands => by rwa [live]

/-- Events that reach neither the rules, nor the banks, nor the lists. -/
theorem of_apart (ok : s.ListsOk) (rules : t.rules = s.rules) (dirs : t.dirs = s.dirs)
    (lists : t.lists = s.lists) : t.ListsOk :=
  of_lists rules (liveTile_of_dirs dirs) fun h slot => by
    rw [State.list, lists]
    exact ok.fits h slot

theorem video (ok : s.ListsOk) (frame : VideoFrame s t) : t.ListsOk :=
  ok.of_apart ((congrArg State.rules frame).trans rfl) frame.dirs ((congrArg State.lists frame).trans rfl)

theorem tour (ok : s.ListsOk) (frame : TourFrame s t) : t.ListsOk :=
  ok.of_apart ((congrArg State.rules frame).trans rfl) frame.dirs ((congrArg State.lists frame).trans rfl)

theorem setLine (ok : s.ListsOk) (l : LineId) (r : LineRecord) : (s.setLine l r).ListsOk :=
  ok.of_apart rfl rfl rfl

theorem raise (ok : s.ListsOk) (k : NoticeKey) (v : NoticeValue) : (s.raise k v).ListsOk :=
  ok.of_apart rfl rfl rfl

theorem raiseEvicted (ok : s.ListsOk) (e : Option Entry) : (s.raiseEvicted e).ListsOk := by
  cases e with
  | none => exact ok
  | some e => exact ok.raise _ _

theorem setList (ok : s.ListsOk) {h : Head} {slot : SlotId} {l : List Entry} (new : s.ListFits h slot l) :
    (s.setList h slot l).ListsOk :=
  of_lists (s := s) rfl (fun _ _ => rfl) fun j k => by
    rw [State.setList_list]
    split
    · next here => obtain ⟨rfl, rfl⟩ := here; exact new
    · exact ok.fits j k

theorem replaceList (ok : s.ListsOk) {h : Head} {slot : SlotId} {l : List Entry} (new : s.ListFits h slot l) :
    (s.replaceList h slot l).ListsOk := by
  unfold State.replaceList
  split
  · exact ok.setList new
  · exact (ok.setList new).raise _ _

/-- R137: entries leave a list. -/
theorem filterList (ok : s.ListsOk) (h : Head) (slot : SlotId) (p : Entry → Bool) :
    (s.replaceList h slot ((s.list h slot).filter p)).ListsOk :=
  ok.replaceList ((ok.fits h slot).sublist List.filter_sublist)

theorem reset : State.reset.ListsOk := listsOk_iff.2 fun h slot => by
  have empty : State.reset.list h slot = [] := by cases h <;> exact Table.get_fill _ slot
  rw [empty]
  exact .nil

/-! ### Firing and release (R119, R130 to R135) -/

theorem fire (ok : s.ListsOk) {n : RuleId} {r : Rule} (stands : s.rule n = some r) (c : FireCause) :
    (fire c n r s).1.ListsOk := by
  have fits := ok.fits r.head r.slot
  unfold Machine.fire
  split
  · exact ok
  · next tile =>
      dsimp only
      split
      · refine ok.setList (fits.restateAll fun e => ?_)
        split
        exacts [⟨_, rfl⟩, ⟨e.state, rfl⟩]
      · next absent =>
          split
          · exact ok
          · next l' evicted capped =>
              obtain ⟨keep, sub, room, rfl⟩ := insertCapped_eq_some fits.short capped
              have counted : State.ListsOk { s with arrival := s.arrival + 1 } := ok.of_apart rfl rfl rfl
              refine (counted.raiseEvicted evicted).replaceList (ListFits.imp (s := s) ?_ ?_ ?_)
              · refine (fits.sublist sub).insert room (fun f mem same => absent ?_)
                  ⟨r, stands, rfl, rfl, rfl⟩ (Option.isSome_iff_ne_none.2 (by simpa using tile))
                exact List.any_eq_true.2 ⟨f, sub.subset mem, decide_eq_true same⟩
              · exact fun e _ => by rw [raiseEvicted_rule]; rfl
              · exact fun _ live => by rw [raiseEvicted_liveTile]; exact live

theorem fireByLine (ok : s.ListsOk) {n : RuleId} {r : Rule} (stands : s.rule n = some r) :
    (fireByLine n r s).ListsOk := by
  have fired := ok.fire stands .line
  unfold Machine.fireByLine
  split
  · next eq => rwa [eq] at fired
  · next eq => rw [eq] at fired; exact fired.raise _ _
  · next eq => rw [eq] at fired; exact fired.raise _ _

theorem assertionTurn (ok : s.ListsOk) (l : LineId) (n : RuleId) : (assertionTurn l s n).ListsOk := by
  unfold Machine.assertionTurn
  split
  · next r stands =>
      split
      · exact ok.fireByLine stands
      · exact ok
  · exact ok

theorem lineAsserts (ok : s.ListsOk) (l : LineId) : (lineAsserts l s).ListsOk :=
  List.foldlRecOn _ (Machine.assertionTurn l) ok fun _ before n _ => before.assertionTurn l n

/-- R135: each entry is left with another state or removed. -/
theorem lineReleases (ok : s.ListsOk) (l : LineId) : (lineReleases l s).ListsOk := by
  obtain ⟨records, lists, -⟩ := lineReleases_released l s
  generalize Machine.lineReleases l s = t at records lists
  have rules : t.rules = s.rules := (congrArg State.rules records).trans rfl
  have dirs : t.dirs = s.dirs := (congrArg State.dirs records).trans rfl
  refine of_lists rules (liveTile_of_dirs dirs) fun h slot => ?_
  rw [lists]
  refine (ok.fits h slot).restate fun e e' kept => ?_
  unfold releasedEntry at kept
  split at kept
  · split_ifs at kept
    all_goals cases kept; exact ⟨_, rfl⟩
  · cases kept; exact ⟨_, rfl⟩

/-! ### The alarm lines (R116 to R120) -/

theorem lineCompares (ok : s.ListsOk) (l : LineId) : (lineCompares l s).ListsOk := by
  unfold Machine.lineCompares
  dsimp only
  split
  · exact (ok.setLine l _).lineAsserts l
  · exact (ok.setLine l _).lineReleases l
  · exact ok.setLine l _
  · exact ok.setLine l _

theorem startDebounce (ok : s.ListsOk) (l : LineId) : (startDebounce l s).ListsOk := by
  unfold Machine.startDebounce
  dsimp only
  split
  · exact ok.lineCompares l
  · exact ok.setLine l _

theorem takeSample (ok : s.ListsOk) (l : LineId) : (takeSample l s).ListsOk := by
  unfold Machine.takeSample
  dsimp only
  split
  · exact ok
  split
  · exact (ok.setLine l _).startDebounce l
  · exact ok.setLine l _

theorem endMillisecond (ok : s.ListsOk) (l : LineId) : (endMillisecond l s).ListsOk := by
  unfold Machine.endMillisecond
  dsimp only
  split
  · exact ok.setLine l _
  · exact (ok.setLine l _).takeSample l

/-- R120: LINE_SET. -/
theorem reconfigure (ok : s.ListsOk) (l : LineId) (r : LineRecord) : (reconfigured l r s).ListsOk := by
  have released : (alarmReleased l s).ListsOk := by
    unfold alarmReleased
    split
    · exact ok.lineReleases l
    · exact ok
  unfold reconfigured
  split
  · exact (released.setLine l r).startDebounce l
  · exact released.setLine l r

/-- R136: a hold loses a millisecond. -/
theorem countDown (ok : s.ListsOk) : (countDown s).ListsOk :=
  of_lists (s := s) rfl (fun _ _ => rfl) fun h slot => by
    rw [countDown_list]
    refine (ok.fits h slot).restateAll fun e => ?_
    unfold Entry.tick
    split
    exacts [⟨_, rfl⟩, ⟨e.state, rfl⟩, ⟨e.state, rfl⟩]

theorem tick (ok : s.ListsOk) : (tick s).ListsOk :=
  List.foldlRecOn _ _ ok.countDown fun _ before l _ => before.endMillisecond l

/-! ### The rules (R124 to R126) -/

theorem removeEntryOf (ok : s.ListsOk) (n : RuleId) : (removeEntryOf n s).1.ListsOk := by
  unfold Machine.removeEntryOf
  split
  · exact ok.filterList _ _ _
  · exact ok

/-- R125: no list keeps an entry of the rule, since its entries stood in the list of its target. -/
theorem removeEntryOf_absent (ok : s.ListsOk) (n : RuleId) (h : Head) (slot : SlotId) :
    ∀ e ∈ (Machine.removeEntryOf n s).1.list h slot, e.rule ≠ n := by
  rintro e mem rfl
  cases stands : s.rule e.rule with
  | none =>
      rw [removeEntryOf_empty stands] at mem
      obtain ⟨r, defined, -⟩ := (ok.fits h slot).targeted e mem
      exact absurd (stands.symm.trans defined) nofun
  | some old =>
      rw [removeEntryOf_defined stands, relisted_list] at mem
      split at mem
      · exact of_decide_eq_true (List.mem_filter.1 mem).2 rfl
      · next elsewhere =>
          obtain ⟨r, defined, head, at_slot, -⟩ := (ok.fits h slot).targeted e mem
          cases stands.symm.trans defined
          exact elsewhere ⟨head.symm, at_slot.symm⟩

/-- R125, R126: a rule takes a new record, or none, once its entry is gone. -/
theorem replaceRule (ok : s.ListsOk) (n : RuleId) (x : Option Rule) :
    ((Machine.removeEntryOf n s).1.setRule n x).ListsOk :=
  listsOk_iff.2 fun h slot => ((ok.removeEntryOf n).fits h slot).imp
    (fun e mem => by rw [State.setRule_rule, if_neg (ok.removeEntryOf_absent n h slot e mem)]) fun _ => id

/-! ### The banks (R26 to R34) -/

/-- A directory edited off its LIVE bank. -/
theorem setDir (ok : s.ListsOk) (h : Head) {d : Directory} (live : d.live = (s.dir h).live) :
    (s.setDir h d).ListsOk := by
  refine of_lists (s := s) rfl (fun j slot => ?_) ok.fits
  rw [State.liveTile, State.setDir_dir]
  split
  · next same => rw [live, ← same]; rfl
  · rfl

/-- R25, R29. -/
theorem endCommit (ok : s.ListsOk) (h : Head) (r : Result) : (endCommit h r s).ListsOk := by
  obtain ⟨mark, eq⟩ := endCommit_eq h r s
  rw [eq]
  exact (ok.setDir h (d := (s.dir h).ended) rfl).of_apart rfl rfl rfl

/-- R26, R32: the list of a slot that the application frees is cancelled. -/
theorem applyBank (ok : s.ListsOk) (h : Head) (new : Bank) : (applyBank h new s).ListsOk := by
  refine listsOk_iff.2 fun j slot => ?_
  rw [applyBank_list]
  split
  · exact .nil
  · next kept =>
      refine (ok.fits j slot).imp (fun _ _ => by rw [State.rule, applyBank_rules]; rfl) fun _ old => ?_
      rw [applyBank_liveTile]
      split
      · next same =>
          subst same
          exact Option.isSome_iff_ne_none.2 (by simpa [freed, old] using kept)
      · exact old

/-- R26, R27. -/
theorem applyCommit (ok : s.ListsOk) (h : Head) (detail : Nat) : (applyCommit h detail s).ListsOk := by
  cases pending : (s.dir h).commit with
  | none => rwa [applyCommit_none pending]
  | some c =>
      rw [applyCommit_some pending]
      exact ((ok.setDir h (d := (s.dir h).ended) rfl).applyBank h c.bank).of_apart rfl rfl rfl

theorem completeStop (ok : s.ListsOk) (h : Head) : (completeStop h s).ListsOk := by
  rw [completeStop_eq]
  have stopped : (s.setHead h (s.head h).stopCompleted).ListsOk := ok.of_apart rfl rfl rfl
  exact stopped.applyCommit h 0

/-- R34: the LIVE banks stand. -/
theorem portReset (ok : s.ListsOk) : s.portReset.ListsOk :=
  of_lists (s := s) rfl (fun h _ => by cases h <;> rfl) ok.fits

end State.ListsOk

/-! ### Every step -/

/-- What a ring command's effect does to the lists, their rules and the LIVE tiles under them. -/
theorem RingEffect.listsOk {s u : State} (e : RingEffect s u) (ok : s.ListsOk) : u.ListsOk := by
  have working (hd : Head) (b : Bank) : (s.setWorking hd b).ListsOk := ok.setDir hd rfl
  have same {t : State} (rules : t.rules = s.rules) (dirs : t.dirs = s.dirs) (lists : t.lists = s.lists) :
      t.ListsOk := ok.of_apart rules dirs lists
  cases e with
  | place hd => exact working hd _
  | modify hd => exact working hd _
  | restack hd => exact working hd _
  | retire hd => exact working hd _
  | clear hd => exact working hd _
  | revert hd => exact working hd _
  | commitNow hd => exact (ok.endCommit hd _).applyBank hd _
  | commitLater hd => exact (ok.endCommit hd _).setDir hd rfl
  | cancel hd => exact ok.endCommit hd _
  | startHead => exact same rfl rfl rfl
  | stopInFrame => exact same rfl rfl rfl
  | stopNow hd => exact ok.completeStop hd
  | nothing => exact ok
  | colour => exact same rfl rfl rfl
  | background => exact same rfl rfl rfl
  | configure i => exact ok.video (((VideoFrame.refl s).setPage i _).changeSource i _)
  | disable i => exact ok.video (((VideoFrame.refl s).setPage i _).changeSource i _)
  | lockParams => exact same rfl rfl rfl
  | masks => exact same rfl rfl rfl
  | defineTour => exact same rfl rfl rfl
  | redefineTour => exact same rfl rfl rfl
  | retireTour => exact same rfl rfl rfl
  | control => exact ok.tour (controlRuntime_tourFrame ..)
  | line l r =>
      rw [← reconfigured_eq]
      exact ok.reconfigure l r
  | rule n r => exact ok.replaceRule n r
  | trigger n r u position stands fires =>
      have fired := ok.fire stands .software
      rwa [fires] at fired
  | clearEntries hd k => exact ok.filterList hd k _

/-- Each event of the part. -/
theorem ExecEffect.listsOk {s t : State} (e : ExecEffect s t) (ok : s.ListsOk) : t.ListsOk := by
  cases e with
  | command p q effect =>
      have before : (s.setPort p).ListsOk := ok.of_apart rfl rfl rfl
      exact (effect.listsOk before).of_apart rfl rfl rfl
  | port => exact ok.of_apart rfl rfl rfl
  | portReset => exact ok.portReset.of_apart rfl rfl rfl
  | resultWrite => exact ok.of_apart rfl rfl rfl
  | frameStart h => exact (ok.applyCommit h _).of_apart rfl rfl rfl
  | frameEnd h => exact ok.of_apart rfl rfl rfl
  | lastFrameEnd h => exact (ok.completeStop h).of_apart rfl rfl rfl
  | timingCodes p i owns codes => exact ok.video (takeCodes_videoFrame i codes s)
  | lossExpiry i => exact ok.video (((VideoFrame.refl s).setPage i _).changeSource i _)
  | dwellExpiry => exact ok.tour (advanceRuntime_tourFrame ..)
  | pin l => exact ok.setLine l _
  | sample l => exact (ok.setLine l _).takeSample l
  | debounceExpiry l => exact ok.lineCompares l
  | holdExpiry => exact ok.filterList _ _ _
  | deviceReset => exact State.ListsOk.reset.of_apart rfl rfl rfl

/-- Settles O58: the queue leaves the lists, a millisecond changes the states of entries and lets lines fire
and release, and every command keeps each list well formed. -/
theorem everyStepKeepsCallupLists : Obligations.EveryStepKeepsCallupLists := fun _ _ ok run =>
  step_keeps (P := State.ListsOk) (fun _ _ ok => ok.of_apart rfl rfl rfl) (fun _ ok => ok.tick)
    (fun _ _ effect ok => effect.listsOk ok) ok run

end Sys2Proof.Machine
end

section
/-! PROOF. The call-up lists' commands and the hold expiry (O36 to O38): CALLUP_TRIGGER, CALLUP_CLEAR and
HOLD_EXPIRY. -/

namespace Sys2Proof.Machine

/-! ### CALLUP_TRIGGER (R130 to R134) -/

theorem State.triggerActive_iff {s : State} {r : Rule} :
    s.triggerActive r = true ↔ ∃ l, r.line = some l ∧ (s.line l).state = .active := by
  cases line : r.line <;> simp [State.triggerActive, line]

/-- R134 step 1: no state could hold the entry that the firing would make. -/
def Rule.Unheld (r : Rule) (s : State) : Prop :=
  r.hold = 0 ∧ r.latch = false ∧ ¬ s.triggerActive r = true

theorem Rule.unheld_iff {r : Rule} {s : State} :
    (r.hold = 0 && !r.latch && !s.triggerActive r) = true ↔ r.Unheld s := by
  simp [Rule.Unheld, and_assoc]

section
variable {h : Header} {n : RuleId} {r : Rule} {s : State}

/-- R132: the state of an entry that a software firing refreshes or makes. -/
theorem firedState_software {active : Bool} {st : EntryState} (asserted : active = true → st = .asserted)
    (latched : ¬ active = true → r.latch = true → st = .latched)
    (holding : ¬ active = true → r.latch = false → st = .holding (r.hold * 1000)) :
    firedState .software r active = st := by
  cases active with
  | true => simp [firedState, asserted rfl]
  | false =>
      cases latch : r.latch with
      | true => simp [firedState, latch, latched nofun latch]
      | false => simp [firedState, latch, holding nofun latch]

theorem callupTrigger_empty (clean : h.clean = true) (empty : s.rule n = none) :
    callupTrigger h n.val s = refuse s .ruleEmpty := by
  simp only [callupTrigger, parseFin_val, clean, empty, Bool.not_true, Bool.false_eq_true, if_false]

theorem callupTrigger_unheld (clean : h.clean = true) (stands : s.rule n = some r) (unheld : r.Unheld s) :
    callupTrigger h n.val s = refuse s .badArgument := by
  simp only [callupTrigger, parseFin_val, clean, stands, Rule.unheld_iff.2 unheld, Bool.not_true,
    Bool.false_eq_true, if_false, if_true]

/-- R134: what the firing comes to is the reply. -/
theorem callupTrigger_fired (clean : h.clean = true) (stands : s.rule n = some r) (held : ¬ r.Unheld s) :
    (∀ u p, fire .software n r s = (u, .placed p) → callupTrigger h n.val s = (u, .done .ok p))
    ∧ (∀ u, fire .software n r s = (u, .noTile) → callupTrigger h n.val s = refuse s .noTile)
    ∧ ∀ u, fire .software n r s = (u, .listFull) → callupTrigger h n.val s = refuse s .listFull := by
  rw [← Rule.unheld_iff] at held
  simp only [callupTrigger, parseFin_val, clean, stands, held, Bool.not_true, Bool.false_eq_true, if_false]
  refine ⟨fun u p fired => ?_, fun u fired => ?_, fun u fired => ?_⟩
  all_goals rw [fired]

theorem exec_callupTrigger_placed {u : State} {p : Nat} (ready : s.Ready) (clean : h.clean = true)
    (stands : s.rule n = some r) (held : ¬ r.Unheld s) (fired : fire .software n r s = (u, .placed p)) :
    exec (.callupTrigger h n.val) s = .next (u.afterCommand (answers h 0x53 .ok p)) := by
  have frame := fire_alarmFrame .software n r s
  have refired := onPort_fire s s.taken.port .software n r
  rw [fired] at frame refired
  obtain ⟨placed, -⟩ := callupTrigger_fired (s := s.taken) clean stands held
  exact congrArg Host.Outcome.next (arrive_noticing ready (placed _ p refired) frame.port)

theorem exec_callupTrigger_noTile (ready : s.Ready) (clean : h.clean = true) (stands : s.rule n = some r)
    (held : ¬ r.Unheld s) (free : s.liveTile r.head r.slot = none) :
    exec (.callupTrigger h n.val) s = .next (s.afterCommand (answers h 0x53 .noTile 0)) := by
  obtain ⟨-, noTile, -⟩ := callupTrigger_fired (s := s.taken) clean stands held
  exact congrArg Host.Outcome.next (arrive_refused ready (noTile s.taken (fire_noTile free)))

theorem exec_callupTrigger_full (ready : s.Ready) (clean : h.clean = true) (stands : s.rule n = some r)
    (held : ¬ r.Unheld s) (fired : fire .software n r s = (s, .listFull)) :
    exec (.callupTrigger h n.val) s = .next (s.afterCommand (answers h 0x53 .listFull 0)) := by
  have refired := onPort_fire s s.taken.port .software n r
  rw [fired] at refired
  obtain ⟨-, -, full⟩ := callupTrigger_fired (s := s.taken) clean stands held
  exact congrArg Host.Outcome.next (arrive_refused ready (full _ refired))

end

/-- Settles O36, check by check, and by what the firing comes to; the operands outside their ranges are
O10's. -/
theorem callupTriggerFires : Obligations.CallupTriggerFires := by
  intro h n s ready clean
  refine ⟨fun empty => congrArg _ (arrive_refused ready (callupTrigger_empty clean empty)),
    fun h' rule malformed => ?_, fun r stands => ?_⟩
  · exact operandOutOfRangeRefused _ h' 0x53 s rfl rfl nofun ready
      (malformed.imp_right fun high => decide_eq_false (Nat.not_lt_of_le high))
  · simp only [← State.triggerActive_iff]
    refine ⟨fun hold latch still => ?_, fun held => exec_callupTrigger_noTile ready clean stands held,
      fun st asserted latched holding held tile => ?_⟩
    · exact congrArg _ (arrive_refused ready (callupTrigger_unheld clean stands ⟨hold, latch, still⟩))
    · obtain rfl := firedState_software asserted latched holding
      exact ⟨fun full => exec_callupTrigger_full ready clean stands held (fire_full tile full),
        fun u p fires => exec_callupTrigger_placed ready clean stands held (fire_fires tile fires)⟩

/-! ### CALLUP_CLEAR (R137) -/

section
variable {h : Header} {hd : Head} {k : SlotId} {s : State}

/-- Past step 1, of one rule or, with none, of ALL. -/
theorem callupClear_eq (clean : h.clean = true) (rule : Option RuleId) :
    callupClear h (codeHead hd) k.val (codeOrNone rule) s =
      (s.replaceList hd k ((s.list hd k).filter fun e => !e.cleared rule),
        .done .ok ((s.list hd k).countP fun e => e.cleared rule)) := by
  have named : parseFinOrNone 32 (codeOrNone rule) = some rule := (parseFinOrNone_eq (by decide)).2 rfl
  simp only [callupClear, parseHead_code, parseFin_val, named, clean, Bool.not_true, Bool.false_eq_true,
    if_false]

theorem exec_callupClear (ready : s.Ready) (clean : h.clean = true) (rule : Option RuleId) :
    exec (.callupClear h (codeHead hd) k.val (codeOrNone rule)) s = .next
      ((s.relisted hd k ((s.list hd k).filter fun e => !e.cleared rule)).afterCommand
        (answers h 0x54 .ok ((s.list hd k).countP fun e => e.cleared rule))) := by
  have reply := callupClear_eq (hd := hd) (k := k) (s := s.taken) clean rule
  rw [s.taken_eq_onPort, onPort_list, onPort_replaceList] at reply
  have frame := (AlarmFrame.refl s).replaceList hd k ((s.list hd k).filter fun e => !e.cleared rule)
  exact congrArg Host.Outcome.next (arrive_noticing ready reply frame.port)

end

theorem callupClear_outOfRange {h : Header} {head slot rule : Nat}
    (wrong : 2 ≤ head ∨ 32 ≤ slot ∨ (32 ≤ rule ∧ rule ≠ 255)) :
    operandsInRange (.callupClear h head slot rule) = false := by
  simp only [operandsInRange, namesOrNone, Bool.and_eq_false_iff, Bool.or_eq_false_iff,
    decide_eq_false_iff_not]
  omega

/-- Settles O37, for one rule and for ALL; the operands outside their ranges are O10's. -/
theorem callupClearRemovesEntries : Obligations.CallupClearRemovesEntries := by
  intro h hd k n s ready clean
  have run (rule : Option RuleId) := exec_callupClear (hd := hd) (k := k) ready clean rule
  refine ⟨?_, ?_, fun h' head slot rule malformed => ?_⟩
  · have one := run (some n)
    simp only [Entry.cleared, ← decide_not] at one
    exact one
  · have all := run none
    simp only [Entry.cleared, Bool.not_true, List.filter_false, List.countP_true] at all
    exact all
  · exact operandOutOfRangeRefused _ h' 0x54 s rfl rfl nofun ready
      (malformed.imp_right callupClear_outOfRange)

/-! ### HOLD_EXPIRY (R136, R138) -/

section
variable {n : RuleId} {s : State}

theorem Entry.expired_iff {e : Entry} : e.expired n = true ↔ e.rule = n ∧ e.state = .holding 0 := by
  simp [Entry.expired]

theorem exec_holdExpiry_empty (empty : s.rule n = none) : exec (.holdExpiry n) s = .next s := by
  show execHoldExpiry n s = _
  rw [execHoldExpiry, empty]

theorem exec_holdExpiry_defined {r : Rule} (stands : s.rule n = some r) : exec (.holdExpiry n) s = .next
    (if (s.list r.head r.slot).any (fun e => e.expired n)
      then s.relisted r.head r.slot ((s.list r.head r.slot).filter fun e => !e.expired n) else s) := by
  show execHoldExpiry n s = _
  rw [execHoldExpiry, stands]
  rfl

/-- The one entry of the rule is the one that goes. -/
theorem filter_expired {front back : List Entry} {e : Entry} (gone : e.expired n = true)
    (once : ∀ f ∈ front ++ back, f.rule ≠ n) :
    (front ++ e :: back).filter (fun e => !e.expired n) = front ++ back := by
  have stays : ∀ f ∈ front ++ back, (!f.expired n) = true := fun f mem => by
    rw [Bool.not_eq_true', ← Bool.not_eq_true, Entry.expired_iff]
    exact fun ⟨own, _⟩ => once f mem own
  rw [List.filter_append, List.filter_cons_of_neg (by simp [gone]), ← List.filter_append,
    List.filter_eq_self.2 stays]

end

/-- Settles O38, by whether the rule has an entry whose hold has run out. -/
theorem holdExpiryRemovesTheEntry : Obligations.HoldExpiryRemovesTheEntry := by
  intro n s
  refine ⟨exec_holdExpiry_empty, fun r stands =>
    ⟨fun runs => ?_, fun front e back list own elapsed once => ?_⟩⟩
  · rw [exec_holdExpiry_defined stands, if_neg]
    intro any
    obtain ⟨e, mem, gone⟩ := List.any_eq_true.1 any
    obtain ⟨own, elapsed⟩ := Entry.expired_iff.1 gone
    exact runs e mem own elapsed
  · have gone : e.expired n = true := Entry.expired_iff.2 ⟨own, elapsed⟩
    rw [exec_holdExpiry_defined stands, list, if_pos, filter_expired gone once]
    exact List.any_eq_true.2 ⟨e, List.mem_append_right _ List.mem_cons_self, gone⟩

end Sys2Proof.Machine
end

section
/-! PROOF. The queue, the processor and the answers (O1, O3 to O7, O9): every command has a next state, the
fetch and the wait of a ring command, and what the port then does by itself. -/

namespace Sys2Proof.Machine

/-! ### The command at the front of the queue -/

/-- Settles O1. -/
theorem stepTakesTheFrontCommand : Obligations.StepTakesTheFrontCommand := fun _ _ _ => rfl

/-- A row that is no command of the ring has a next state. -/
theorem event_answers {c : Instr} (event : ringHeader c = none) (s : State) : Answers (exec c s) := by
  cases c <;> cases event <;> exact ⟨_, rfl⟩

/-- Settles O3: a ring command arrives, and every other row has its next state. -/
theorem everyCommandHasANextState : Obligations.EveryCommandHasANextState := by
  intro c s
  cases ring : ringHeader c with
  | none => exact event_answers ring s
  | some h => exact ⟨_, exec_ring ring s⟩

/-! ### The record of a command (R148, R150, R167) -/

theorem exec_fetch (record : List Byte) (s : State) :
    exec (.fetch record) s = .next (arrive (decodeRecord record) (execute (decodeRecord record)) s) := rfl

/-- Whatever its code byte, a record spells a command of the ring. -/
theorem decodeRecord_ring (record : List Byte) : (ringHeader (decodeRecord record)).isSome = true := by
  unfold decodeRecord
  dsimp only
  split <;> rfl

/-- Settles O4: the command spelled is one of the ring, whose row is the arrival of its record. -/
theorem fetchCarriesOutItsRecord : Obligations.FetchCarriesOutItsRecord := by
  intro record s
  obtain ⟨h, ring⟩ := Option.isSome_iff_exists.1 (decodeRecord_ring record)
  exact ⟨⟨(exec_ring ring s).symm, _, rfl⟩, decodeRecord_ring record⟩

/-- Settles O9: an unknown code is refused before any operand is looked at. -/
theorem unknownCodeAnsweredBadCommand : Obligations.UnknownCodeAnsweredBadCommand := by
  intro h code s ready
  have reply : badCommand s.taken = refuse s.taken .badCommand := rfl
  have run := arrive_refused (i := .badCommand h code) (h := h) (code := code) ready reply
  exact congrArg Host.Outcome.next run

/-! ### The wait for room (R148, R149) -/

/-- A waiting processor goes on with nothing but the completion writer. -/
theorem settle_waiting {p : Port} (waiting : p.proc = .waiting) (free : p.path = none) :
    p.settle = { p with path := if p.queue ≠ [] then some .completionWrite else none } := by
  have stays : p.procSettled = .waiting := by
    rw [Port.procSettled, if_neg (by rw [waiting]; exact nofun), waiting]
  have granted : p.pathSettled .waiting = if p.queue ≠ [] then some .completionWrite else none := by
    simp [Port.pathSettled, free]
  rw [Port.settle_eq, stays, granted, Port.drain_of_not, ← waiting]
  rintro ⟨-, -, -, -, stopped | ⟨idle, -⟩⟩
  · exact absurd stopped nofun
  · exact absurd idle nofun

/-- Settles O5. -/
theorem noRoomHoldsTheCommand : Obligations.NoRoomHoldsTheCommand := by
  intro i s ring fetches full
  obtain ⟨h, ring⟩ := Option.isSome_iff_exists.1 ring
  rw [exec_ring ring, arrive_waits fetches full, State.settled, State.setPort_port,
    settle_waiting rfl rfl]
  rfl

theorem exec_leaveWaiting_room {i : Instr} {s : State} (waits : s.port.proc = .waiting)
    (held : s.port.held = some i) (room : s.hasRoom = true) :
    exec .leaveWaiting s = .next (execute i (s.setPort s.port.took)).settled := by
  show execLeaveWaiting s = _
  rw [execLeaveWaiting, held]
  exact congrArg Host.Outcome.next (if_pos ⟨waits, room⟩)

theorem exec_leaveWaiting_still {s : State} (still : s.port.proc ≠ .waiting ∨ s.hasRoom = false) :
    exec .leaveWaiting s = .next s := by
  have notYet : ¬ (s.port.proc = .waiting ∧ s.hasRoom = true) := fun ⟨waits, room⟩ =>
    still.elim (absurd waits) fun full => absurd (full.symm.trans room) nofun
  show execLeaveWaiting s = _
  unfold execLeaveWaiting
  split
  · rw [if_neg notYet]
  · rfl

/-- The state in which the record of the command that `s` holds is about to be read, at consumer `c`. -/
def State.beforeFetch (s : State) (c : Nat) : State := s.setPort { s.port with
  proc := .fetching, path := some .fetch, held := none, cmdConsumer := c }

/-- R149: the fetch leads to the state in which a held command is executed. -/
theorem beforeFetch_taken {s : State} {c : Nat} (free : s.port.path = none)
    (next : (c + 1) % (2 * s.port.cmdSize) = s.port.cmdConsumer) :
    (s.beforeFetch c).taken = s.setPort s.port.took := by
  have fetched : ((s.beforeFetch c).port.fetched.took) = s.port.took := by
    show ({ s.port with
      path := none, proc := .executing, held := none, query := none
      cmdConsumer := (c + 1) % (2 * s.port.cmdSize) } : Port) = _
    rw [next, ← free]
    rfl
  exact congrArg s.setPort fetched

/-- Settles O6: with room, the wait ends as the fetch of the held command would have. -/
theorem waitingCommandIsCarriedOut : Obligations.WaitingCommandIsCarriedOut := by
  refine ⟨fun i s c ring waits held room free next => ?_,
    fun i s waits held room => exec_leaveWaiting_room waits held room,
    fun s still => exec_leaveWaiting_still still⟩
  obtain ⟨h, ring⟩ := Option.isSome_iff_exists.1 ring
  have ready : (s.beforeFetch c).Ready := ⟨rfl, room⟩
  refine ⟨_, exec_leaveWaiting_room waits held room, ?_⟩
  show exec i (s.beforeFetch c) = _
  rw [exec_ring ring, arrive_ready ready, beforeFetch_taken free next]

/-! ### What the port does by itself (R146, R148, R153, R154) -/

/-- Settles O7, by whether DRAINED mode raises CPL. -/
theorem portGoesOnByItself : Obligations.PortGoesOnByItself := by
  intro p proc path raises
  have settles : p.settle = Port.drain { p with proc, path } := Port.settle_eq p
  rw [settles]
  by_cases drains : raises
  · rw [Port.drain_of_drainsNow (p := { p with proc, path }) drains, if_pos drains, if_pos drains]
  · rw [Port.drain_of_not (p := { p with proc, path }) drains, if_neg drains, if_neg drains]

end Sys2Proof.Machine
end

section
/-! PROOF. The register window (O43 to O46): RUN and RESTART, the ring sizes and indices, the causes, a write
of CONTROL, and the words a read answers. -/

namespace Sys2Proof.Machine

/-! ### RUN and RESTART (R147, R156) -/

/-- R147: a valid configuration of the rings. -/
def Port.Valid (p : Port) : Prop :=
  p.cmdSize ≠ 0 ∧ p.cplSize ≠ 0 ∧ p.cmdBase.toNat % (32 * p.cmdSize) = 0
    ∧ p.cplBase.toNat % (16 * p.cplSize) = 0

theorem Port.configured_iff {p : Port} : p.configured = true ↔ p.Valid := by
  simp only [Port.configured, Port.Valid, Bool.and_eq_true, decide_eq_true_eq, and_assoc]
  rfl

section
variable {p : Port}

theorem setRun_valid (stopped : p.proc = .stopped) (valid : p.Valid) :
    p.setRun = { p with run := true, proc := .idle } := by
  rw [Port.setRun, if_pos stopped, if_pos (Port.configured_iff.2 valid)]

theorem setRun_refused (stopped : p.proc = .stopped) (invalid : ¬ p.Valid) :
    p.setRun = p.raiseIndexError := by
  rw [Port.setRun, if_pos stopped, if_neg (mt Port.configured_iff.1 invalid)]

theorem setRun_going (going : p.proc ≠ .stopped) : p.setRun = { p with run := true } := by
  rw [Port.setRun, if_neg going]

theorem clearRun_idle (idle : p.proc = .idle) : p.clearRun = { p with run := false, proc := .stopped } := by
  rw [Port.clearRun, if_pos idle]

theorem clearRun_busy (busy : p.proc ≠ .idle) : p.clearRun = { p with run := false } := by
  rw [Port.clearRun, if_neg busy]

theorem restarted_faulted (faulted : p.proc = .faulted) : p.restarted =
    { p with
      fault := none
      proc := if p.held.isSome then .waiting else if p.run then .idle else .stopped } := by
  rw [Port.restarted, if_pos faulted]
  rfl

theorem restarted_unfaulted (fine : p.proc ≠ .faulted) : p.restarted = p := by
  rw [Port.restarted, if_neg fine]

end

/-- A host write that makes the port `p`, which then settles. -/
theorem wrote_port {s : State} {p q : Port} (made : p = q) :
    Host.Outcome.next (φ := Fault) (ρ := Refusal) (s.setPort p).settled = .next (s.setPort q.settle) := by
  rw [made]
  rfl

/-- Settles O43, by the processor's state. -/
theorem runAndRestart : Obligations.RunAndRestart := by
  intro s
  exact ⟨fun stopped valid => wrote_port (setRun_valid stopped valid),
    fun stopped invalid => wrote_port (setRun_refused stopped invalid),
    fun going => wrote_port (setRun_going going),
    fun idle => wrote_port (clearRun_idle idle),
    fun busy => wrote_port (clearRun_busy busy),
    fun faulted => wrote_port (restarted_faulted faulted),
    fun fine => wrote_port (restarted_unfaulted fine)⟩

/-! ### The ring sizes (R141) -/

section
variable {p : Port} {s : State} {v : Nat}

theorem ringSizes_contains : Config.ringSizes.contains v = true ↔ v ∈ [16, 32, 64, 128, 256, 512, 1024] :=
  List.contains_iff_mem

theorem writeCmdSize_going (going : p.proc ≠ .stopped) : p.writeCmdSize v = p := by
  rw [Port.writeCmdSize, if_pos going]

theorem writeCmdSize_taken (stopped : p.proc = .stopped) (listed : v ∈ [16, 32, 64, 128, 256, 512, 1024]) :
    p.writeCmdSize v = { p with cmdSize := v, cmdProducer := 0, cmdConsumer := 0 } := by
  rw [Port.writeCmdSize, if_neg (not_not.2 stopped), if_pos (ringSizes_contains.2 listed)]

theorem writeCmdSize_refused (stopped : p.proc = .stopped)
    (unlisted : v ∉ [16, 32, 64, 128, 256, 512, 1024]) : p.writeCmdSize v = p.raiseIndexError := by
  rw [Port.writeCmdSize, if_neg (not_not.2 stopped), if_neg (mt ringSizes_contains.1 unlisted)]

theorem writeCplSize_going (going : s.port.proc ≠ .stopped) : s.writeCplSize v = s.port := by
  rw [State.writeCplSize, if_pos going]

/-- R141: what CPL_SIZE asks beyond STOPPED. -/
theorem cplSize_condition :
    (Config.ringSizes.contains v && s.port.queue.isEmpty && decide (s.reservations = 0)) = true ↔
      v ∈ [16, 32, 64, 128, 256, 512, 1024] ∧ s.port.queue = [] ∧ s.reservations = 0 := by
  rw [Bool.and_eq_true, Bool.and_eq_true, ringSizes_contains, List.isEmpty_iff, decide_eq_true_eq, and_assoc]

theorem writeCplSize_taken (stopped : s.port.proc = .stopped)
    (free : v ∈ [16, 32, 64, 128, 256, 512, 1024] ∧ s.port.queue = [] ∧ s.reservations = 0) :
    s.writeCplSize v = { s.port with cplSize := v, cplWrite := 0, cplRead := 0 } := by
  rw [State.writeCplSize, if_neg (not_not.2 stopped), if_pos (cplSize_condition.2 free)]

theorem writeCplSize_refused (stopped : s.port.proc = .stopped)
    (bound : ¬ (v ∈ [16, 32, 64, 128, 256, 512, 1024] ∧ s.port.queue = [] ∧ s.reservations = 0)) :
    s.writeCplSize v = s.port.raiseIndexError := by
  rw [State.writeCplSize, if_neg (not_not.2 stopped), if_neg (mt cplSize_condition.1 bound)]

end

/-- Settles O44, by the processor's state and the value written. -/
theorem ringSizesTakenWhileStopped : Obligations.RingSizesTakenWhileStopped := by
  intro v s
  exact ⟨fun going => ⟨wrote_port (writeCmdSize_going going), wrote_port (writeCplSize_going going)⟩,
    fun stopped listed => wrote_port (writeCmdSize_taken stopped listed),
    fun stopped unlisted => wrote_port (writeCmdSize_refused stopped unlisted),
    fun stopped listed empty free => wrote_port (writeCplSize_taken stopped ⟨listed, empty, free⟩),
    fun stopped bound => wrote_port (writeCplSize_refused stopped bound)⟩

/-! ### The ring indices (R142, R143) -/

section
variable {p : Port} {v : Nat}

theorem writeProducer_taken (inRing : v < 2 * p.cmdSize)
    (room : p.outstanding + ringDistance p.cmdSize v p.cmdProducer ≤ p.cmdSize) :
    p.writeProducer v = { p with cmdProducer := v } := by
  rw [Port.writeProducer, if_pos ⟨inRing, room⟩]

theorem writeProducer_refused (wrong : 2 * p.cmdSize ≤ v
    ∨ p.cmdSize < p.outstanding + ringDistance p.cmdSize v p.cmdProducer) :
    p.writeProducer v = p.raiseIndexError := by
  rw [Port.writeProducer, if_neg (by omega)]

theorem writeCplRead_taken (inRing : v < 2 * p.cplSize)
    (occupied : ringDistance p.cplSize p.cplWrite v ≤ p.occupancy) :
    p.writeCplRead v = { p with cplRead := v } := by
  rw [Port.writeCplRead, if_pos ⟨inRing, occupied⟩]

theorem writeCplRead_refused (wrong : 2 * p.cplSize ≤ v
    ∨ p.occupancy < ringDistance p.cplSize p.cplWrite v) : p.writeCplRead v = p.raiseIndexError := by
  rw [Port.writeCplRead, if_neg (by omega)]

end

/-- Settles O45: the two clauses of each index exclude each other. -/
theorem ringIndexWrites : Obligations.RingIndexWrites := by
  intro v s _
  exact ⟨fun inRing room => wrote_port (writeProducer_taken inRing room),
    fun wrong => wrote_port (writeProducer_refused wrong),
    fun inRing occupied => wrote_port (writeCplRead_taken inRing occupied),
    fun wrong => wrote_port (writeCplRead_refused wrong)⟩

/-! ### A write of CONTROL (R147, R169, log 18) -/

section
variable {p : Port} {v : Word}

theorem setRun_proc (fine : p.proc ≠ .faulted) : p.setRun.proc ≠ .faulted := by
  unfold Port.setRun
  split_ifs
  · exact nofun
  · exact fine
  · exact fine

theorem clearRun_proc (fine : p.proc ≠ .faulted) : p.clearRun.proc ≠ .faulted := by
  unfold Port.clearRun
  dsimp only
  split_ifs
  · exact nofun
  · exact fine

/-- Without RESTART, or where it has no effect, CONTROL is RUN and the mode. -/
theorem writeControl_unrestarted (still : v.getLsbD 9 = false ∨ p.proc ≠ .faulted) :
    p.writeControl v = (if v.getLsbD 0 then p.setRun else p.clearRun).setMode (modeOf (v.getLsbD 1)) := by
  unfold Port.writeControl
  dsimp only
  split
  · next bit =>
      have fine : p.proc ≠ .faulted := still.resolve_left (by rw [bit]; exact nofun)
      refine restarted_unfaulted ?_
      show (if v.getLsbD 0 then p.setRun else p.clearRun).proc ≠ .faulted
      split
      · exact setRun_proc fine
      · exact clearRun_proc fine
  · rfl

theorem writeControl_set (still : v.getLsbD 9 = false ∨ p.proc ≠ .faulted) (on : v.getLsbD 0 = true) :
    p.writeControl v = p.setRun.setMode (modeOf (v.getLsbD 1)) := by
  rw [writeControl_unrestarted still, if_pos on]

theorem writeControl_clear (still : v.getLsbD 9 = false ∨ p.proc ≠ .faulted)
    (off : v.getLsbD 0 = false) : p.writeControl v = { p with
      run := false, mode := modeOf (v.getLsbD 1)
      proc := if p.proc = .idle then .stopped else p.proc } := by
  rw [writeControl_unrestarted still, if_neg (by rw [off]; exact nofun)]
  rfl

/-- RESTART of a FAULTED processor, by the RUN bit the same write has taken. -/
theorem writeControl_restarts (bit : v.getLsbD 9 = true) (faulted : p.proc = .faulted) :
    p.writeControl v = { p with
      run := v.getLsbD 0, mode := modeOf (v.getLsbD 1), fault := none
      proc := if p.held.isSome then .waiting else if v.getLsbD 0 then .idle else .stopped } := by
  have running : (if v.getLsbD 0 then p.setRun else p.clearRun) = { p with run := v.getLsbD 0 } := by
    cases v.getLsbD 0 with
    | true => exact setRun_going (by rw [faulted]; exact nofun)
    | false => exact clearRun_busy (by rw [faulted]; exact nofun)
  unfold Port.writeControl
  rw [running, if_pos bit]
  exact restarted_faulted faulted

end

/-! ### The window map of a write (R169, table 12-8) -/

section
variable {v : Word} {s : State}

theorem exec_registerWrite_whole (offset : Nat) :
    exec (.registerWrite offset 15 v) s = .next (s.writeRegister offset v) := rfl

theorem writeRegister_unlisted {offset : Nat}
    (unlisted : offset ∉ [0x004, 0x010, 0x014, 0x018, 0x020, 0x024, 0x02C, 0x030, 0x034]) :
    s.writeRegister offset v = s := by
  simp only [List.mem_cons, List.not_mem_nil, or_false, not_or] at unlisted
  obtain ⟨control, cmdBase, cmdSize, producer, cplBase, cplSize, cplRead, cause, enable⟩ := unlisted
  exact (if_neg control).trans <| (if_neg cmdBase).trans <| (if_neg cmdSize).trans <|
    (if_neg producer).trans <| (if_neg cplBase).trans <| (if_neg cplSize).trans <|
    (if_neg cplRead).trans <| (if_neg cause).trans (if_neg enable)

/-- Part of a word, or an offset with no writable register. -/
theorem exec_registerWrite_discarded {offset : Nat} {enables : BitVec 4} (wrong : enables ≠ 15
    ∨ offset ∉ [0x004, 0x010, 0x014, 0x018, 0x020, 0x024, 0x02C, 0x030, 0x034]) :
    exec (.registerWrite offset enables v) s = .next s := by
  show Host.Outcome.next (if enables = 15 then s.writeRegister offset v else s) = _
  split
  · next whole => rw [writeRegister_unlisted (wrong.resolve_left (not_not.2 whole))]
  · rfl

theorem exec_control_reset (reset : v.getLsbD 8 = true) :
    exec (.registerWrite 0x004 15 v) s = exec .portReset s :=
  congrArg Host.Outcome.next (if_pos reset)

theorem exec_control {p : Port} (kept : v.getLsbD 8 = false) (wrote : s.port.writeControl v = p) :
    exec (.registerWrite 0x004 15 v) s = .next (s.setPort p.settle) := by
  have unreset : ¬ v.getLsbD 8 = true := by rw [kept]; exact nofun
  exact (congrArg Host.Outcome.next (if_neg unreset)).trans (wrote_port wrote)

theorem exec_cmdBase : exec (.registerWrite 0x010 15 v) s = .next (if s.port.proc = .stopped then
    { s with port := { s.port with cmdBase := v } } else s) := by
  show Host.Outcome.next (s.setPort (s.port.writeCmdBase v)) = _
  unfold Port.writeCmdBase
  split <;> rfl

theorem exec_cplBase : exec (.registerWrite 0x020 15 v) s = .next (if s.port.proc = .stopped then
    { s with port := { s.port with cplBase := v } } else s) := by
  show Host.Outcome.next (s.setPort (s.port.writeCplBase v)) = _
  unfold Port.writeCplBase
  split <;> rfl

end

/-! ### The words of a read (table 12-8) -/

theorem codeYesNo_le (b : Bool) : codeYesNo b ≤ 1 := by cases b <;> decide

/-- A word that holds a small number. -/
theorem ofNat_toNat_small {n : Nat} (small : n < 2 ^ 16) : (BitVec.ofNat 32 n).toNat = n := by
  rw [BitVec.toNat_ofNat, Nat.mod_eq_of_lt (by omega)]

theorem identWord_toNat : identWord.toNat = 0x1620 * 65536 + Config.revision.toNat := by
  have low := Config.revision.isLt
  rw [identWord, BitVec.toNat_ofNat, Nat.mod_eq_of_lt (by omega)]

theorem controlWord_toNat (p : Port) :
    (controlWord p).toNat = codeYesNo p.run + 2 * codeYesNo (p.mode = .drained) := by
  have := codeYesNo_le p.run
  have := codeYesNo_le (p.mode = .drained)
  exact ofNat_toNat_small (by omega)

/-- R152: each cause at its bit. -/
theorem Causes.toWord_bits (c : Causes) :
    c.toWord.getLsbD 0 = c.cpl ∧ c.toWord.getLsbD 1 = c.notice ∧ c.toWord.getLsbD 2 = c.fault
      ∧ c.toWord.getLsbD 3 = c.indexError ∧ c.toWord.getLsbD 4 = c.frameA
      ∧ c.toWord.getLsbD 5 = c.frameB ∧ c.toWord.toNat < 64 := by
  obtain ⟨cpl, notice, fault, indexError, frameA, frameB⟩ := c
  revert cpl notice fault indexError frameA frameB
  decide

theorem fault_words_none {p : Port} (fine : p.fault = none) :
    faultKindWord p = 0 ∧ faultPhaseWord p = 0 ∧ faultAddressWord p = 0 := by
  rw [faultKindWord, faultPhaseWord, faultAddressWord, fine]
  exact ⟨rfl, rfl, rfl⟩

theorem fault_words_some {p : Port} {f : FaultRecord} (filled : p.fault = some f) :
    (faultKindWord p).toNat = codeFaultKind f.kind ∧ (faultPhaseWord p).toNat = codePhase f.phase
      ∧ faultAddressWord p = f.address := by
  rw [faultKindWord, faultPhaseWord, faultAddressWord, filled]
  obtain ⟨kind, phase, address⟩ := f
  exact ⟨by cases kind <;> rfl, by cases phase <;> rfl, rfl⟩

theorem headStatus_toNat (s : State) (hd : Head) : (s.headStatus hd).toNat =
    codeHeadState (s.head hd).state + 4 * codeStandard (some (s.head hd).standard)
      + 16 * codeYesNo (s.dir hd).commit.isSome := by
  have state : codeHeadState (s.head hd).state ≤ 2 := by cases (s.head hd).state <;> decide
  have standard : codeStandard (some (s.head hd).standard) ≤ 2 := by
    cases (s.head hd).standard <;> decide
  have pending := codeYesNo_le (s.dir hd).commit.isSome
  exact ofNat_toNat_small (by omega)

theorem readWindow_unlisted (s : State) {offset : Nat} (unlisted : offset ∉ [0x000, 0x004, 0x010, 0x014,
    0x018, 0x01C, 0x020, 0x024, 0x028, 0x02C, 0x030, 0x034, 0x040, 0x044, 0x048, 0x050, 0x060, 0x064,
    0x068, 0x06C]) : s.readWindow offset = 0 := by
  unfold State.readWindow
  split
  case h_21 => rfl
  all_goals exact absurd (by decide) unlisted

theorem interruptPin_iff (p : Port) : p.interruptPin = true ↔ (p.cause.cpl ∧ p.enable.cpl)
    ∨ (p.cause.notice ∧ p.enable.notice) ∨ (p.cause.fault ∧ p.enable.fault)
    ∨ (p.cause.indexError ∧ p.enable.indexError) ∨ (p.cause.frameA ∧ p.enable.frameA)
    ∨ (p.cause.frameB ∧ p.enable.frameB) := by
  simp only [Port.interruptPin, Causes.meets, Bool.or_eq_true, Bool.and_eq_true, or_assoc]

/-- Settles O46: the writes register by register, then the reads word by word. -/
theorem registerWindowWritesAndReads : Obligations.RegisterWindowWritesAndReads := by
  intro v mode s
  refine ⟨rfl, rfl, rfl, rfl, rfl, rfl, rfl, exec_cmdBase, exec_cplBase, rfl, exec_control_reset,
    fun kept => ⟨fun still => ⟨fun on going => ?_, fun on stopped valid => ?_, fun on stopped invalid => ?_,
      fun off => exec_control kept (writeControl_clear still off)⟩,
      fun bit faulted => exec_control kept (writeControl_restarts bit faulted)⟩,
    fun offset enables => exec_registerWrite_discarded, ?_, ?_, controlWord_toNat s.port, rfl, rfl, rfl, rfl,
    rfl, rfl, rfl, rfl, ⟨s.port.cause.toWord_bits, s.port.enable.toWord_bits⟩, fault_words_none,
    fun f => fault_words_some, ?_, fun hd => ?_, fun offset => readWindow_unlisted s,
    interruptPin_iff s.port⟩
  · exact exec_control kept (by rw [writeControl_set still on, setRun_going going]; rfl)
  · exact exec_control kept (by rw [writeControl_set still on, setRun_valid stopped valid]; rfl)
  · exact exec_control kept (by rw [writeControl_set still on, setRun_refused stopped invalid]; rfl)
  · have low := Config.revision.isLt
    show identWord.toNat / 65536 = _
    rw [identWord_toNat]
    omega
  · have low := Config.revision.isLt
    show identWord.toNat % 65536 < _
    rw [identWord_toNat]
    omega
  · show (BitVec.ofNat 32 (codeProc s.port.proc)).toNat = _
    cases s.port.proc <;> rfl
  · cases hd with
    | a => exact ⟨headStatus_toNat s .a, rfl⟩
    | b => exact ⟨headStatus_toNat s .b, rfl⟩

end Sys2Proof.Machine
end

section
/-! PROOF. The part's writes on the host bus (O40, O41) and the faults of its transfers (O42). -/

namespace Sys2Proof.Machine

/-! ### Result writes (R151, R161) -/

/-- R161: only the notice reported leaves the set, and only where its value still stands. -/
theorem reported_get (n : NoticeSet) (o : Option (NoticeKey × NoticeValue)) :
    (∀ k v, o = some (k, v) → n.get k = some v → (n.reported o).get k = none)
    ∧ ∀ k, (∀ v, o = some (k, v) → n.get k ≠ some v) → (n.reported o).get k = n.get k := by
  cases o with
  | none => exact ⟨nofun, fun _ _ => rfl⟩
  | some kv =>
      obtain ⟨j, w⟩ := kv
      by_cases stands : n.get j = some w
      · have gone : n.reported (some (j, w)) = n.put j none := if_pos stands
        rw [gone]
        refine ⟨fun k v named _ => ?_, fun k other => NoticeSet.get_put_other n none fun same => ?_⟩
        · cases named
          exact NoticeSet.get_put_same n j none
        · subst same
          exact other w rfl stands
      · have kept : n.reported (some (j, w)) = n := if_neg stands
        rw [kept]
        refine ⟨fun k v named holds => ?_, fun _ _ => rfl⟩
        cases named
        exact absurd holds stands

/-- R150: the answer of a query that succeeds joins the queue, unless the query was quiet. -/
theorem answered_ok (p : Port) (h : Header) (code written second : Nat) :
    p.answered h code .ok written second =
      { p with queue := p.queue ++ queryAnswers h code written second, mark := true } := by
  unfold Port.answered Port.enqueue queryAnswers
  cases h.quiet <;> simp

/-- The state once record `r` of run `q` stands on the bus, before the run goes on or ends. -/
def reporting (q : QueryRun) (r : ResultRecord) (s : State) : State :=
  { s with
    notices := s.notices.reported r.notice
    port := { s.port with lastWrite := some ⟨q.address, r.bytes⟩ } }

theorem writeResult_goes {q : QueryRun} {r : ResultRecord} {rest : List ResultRecord} (more : rest ≠ [])
    (s : State) : writeResult q r rest s = (reporting q r s).setPort
      { (reporting q r s).port with query := some (q.advanced r rest) } := if_neg more

theorem writeResult_ends (q : QueryRun) (r : ResultRecord) (s : State) :
    writeResult q r [] s = (reporting q r s).setPort { s.port with
      lastWrite := some ⟨q.address, r.bytes⟩
      query := none
      path := none
      queue := s.port.queue ++ queryAnswers q.header q.code (q.written + 1)
        (if q.code = 0x67 then (s.notices.reported r.notice).size else q.available)
      mark := true
      proc := if s.port.run then .idle else .stopped } := by
  show endQuery (q.advanced r []) (reporting q r s) = _
  rw [endQuery, answered_ok]
  rfl

theorem exec_resultWrite_none {s : State} (elsewhere : s.port.path ≠ some .resultWrite) :
    exec .resultWrite s = .next s := by
  show execResultWrite s = _
  unfold execResultWrite
  split
  · next path _ => exact absurd path elsewhere
  · rfl

theorem exec_resultWrite {q : QueryRun} {r : ResultRecord} {rest : List ResultRecord} {s : State}
    (path : s.port.path = some .resultWrite) (query : s.port.query = some q) (left : q.left = r :: rest) :
    exec .resultWrite s = .next (writeResult q r rest s).settled := by
  show execResultWrite s = _
  unfold execResultWrite
  rw [path, query]
  dsimp only
  rw [left]

theorem settle_lastWrite (p : Port) : p.settle.lastWrite = p.lastWrite := by
  rw [Port.settle_eq]
  unfold Port.drain
  split <;> rfl

/-- Settles O40, by whether the record is the run's last. -/
theorem resultWriteReportsARecord : Obligations.ResultWriteReportsARecord := by
  intro q r rest s
  refine ⟨exec_resultWrite_none, fun path query left => ⟨_, exec_resultWrite path query left, ?_⟩⟩
  obtain ⟨removed, others⟩ := reported_get s.notices r.notice
  cases rest with
  | nil =>
      rw [writeResult_ends]
      exact ⟨rfl, removed, others, settle_lastWrite _, fun more => absurd rfl more, fun _ => rfl⟩
  | cons next rest =>
      rw [writeResult_goes (List.cons_ne_nil _ _)]
      exact ⟨rfl, removed, others, settle_lastWrite _, fun _ => rfl, nofun⟩

/-! ### Completion writes (R143, R146, R168) -/

theorem wordField_eq (n : Nat) : wordField n =
    [byteField n, byteField (n / 256), byteField (n / 65536), byteField (n / 16777216)] := by
  simp only [wordField, halfField, Nat.div_div_eq_div_mul]
  rfl

/-- Table 12-5, byte by byte. -/
theorem completionBytes_eq (c : Completion) (phase : Bool) : completionBytes c phase =
    [byteField c.tag, byteField (c.tag / 256), byteField c.code, byteField (codeResult c.result),
      byteField c.detail, byteField (c.detail / 256), byteField (c.detail / 65536),
      byteField (c.detail / 16777216), byteField c.detail2, byteField (c.detail2 / 256),
      byteField (c.detail2 / 65536), byteField (c.detail2 / 16777216), 0, 0, 0,
      if phase then 1 else 0] := by
  rw [completionBytes, wordField_eq, wordField_eq]
  cases phase <;> rfl

theorem exec_completionWrite_none {s : State} (elsewhere : s.port.path ≠ some .completionWrite) :
    exec .completionWrite s = .next s := by
  show execCompletionWrite s = _
  unfold execCompletionWrite
  split
  · next path _ => exact absurd path elsewhere
  · rfl

theorem exec_completionWrite {c : Completion} {rest : List Completion} {s : State}
    (path : s.port.path = some .completionWrite) (queue : s.port.queue = c :: rest) :
    exec .completionWrite s = .next (s.setPort (s.port.wroteCompletion c rest).settle) := by
  show execCompletionWrite s = _
  unfold execCompletionWrite
  rw [path, queue]
  rfl

/-- Settles O41. -/
theorem completionWriteAdvances : Obligations.CompletionWriteAdvances := by
  intro c rest s
  refine ⟨exec_completionWrite_none, fun path queue => ?_⟩
  rw [exec_completionWrite path queue, Port.wroteCompletion, completionBytes_eq]
  simp only [Port.phase, decide_eq_true_eq]
  rfl

/-! ### Bus faults (R154, R155) -/

theorem kindFits_iff {kind : BusFaultKind} {phase : Transfer} :
    kindFits kind phase = true ↔ kind ≠ .dataParity ∨ phase = .fetch := by
  cases kind <;> cases phase <;> decide

theorem exec_busFault_none {kind : BusFaultKind} {s : State} (free : s.port.path = none) :
    exec (.busFault kind) s = .next s := by
  show execBusFault kind s = _
  rw [execBusFault, free]

theorem exec_busFault_unfit {kind : BusFaultKind} {phase : Transfer} {s : State}
    (path : s.port.path = some phase) (unfit : ¬ (kind ≠ .dataParity ∨ phase = .fetch)) :
    exec (.busFault kind) s = .next s := by
  show execBusFault kind s = _
  rw [execBusFault, path]
  exact congrArg Host.Outcome.next (if_neg (mt kindFits_iff.1 unfit))

theorem exec_busFault {kind : BusFaultKind} {phase : Transfer} {s : State} (path : s.port.path = some phase)
    (fits : kind ≠ .dataParity ∨ phase = .fetch) : exec (.busFault kind) s = .next
      (s.setPort ((cutQuery s).faulted kind phase (s.port.transferAddress phase)).settle) := by
  show execBusFault kind s = _
  rw [execBusFault, path]
  exact congrArg Host.Outcome.next (if_pos (kindFits_iff.2 fits))

/-- R154: a FAULTED processor does nothing by itself. -/
theorem settle_faulted {p : Port} (faulted : p.proc = .faulted) : p.settle = p := by
  have stays : p.procSettled = p.proc := if_neg (by rw [faulted]; exact nofun)
  have ungranted : p.pathSettled p.proc = p.path := if_pos (.inr faulted)
  rw [Port.settle_eq, stays, ungranted]
  refine Port.drain_of_not ?_
  rintro ⟨-, -, -, -, stopped | ⟨idle, -⟩⟩
  · exact absurd (faulted.symm.trans stopped) nofun
  · exact absurd (faulted.symm.trans idle) nofun

/-- R155: the completion of the query that a fault cuts. -/
def cutAnswers (s : State) : List Completion :=
  match s.port.query with
  | some q => [{ tag := q.header.tag, code := q.code, result := .dataFault
                 detail := q.written, detail2 := secondCount s q }]
  | none => []

theorem cutQuery_eq (s : State) : cutQuery s = { s.port with
    query := none, queue := s.port.queue ++ cutAnswers s, mark := s.port.mark || s.port.query.isSome } := by
  unfold cutQuery cutAnswers
  split
  · next query => rw [query, Option.isSome_some, Bool.or_true]; rfl
  · next idle => rw [idle, Option.isSome_none, Bool.or_false, List.append_nil, ← idle]

/-- R154: the fault address of each transfer. -/
theorem transferAddress_eq (p : Port) (phase : Transfer) : p.transferAddress phase = match phase with
    | .fetch => p.cmdBase + BitVec.ofNat 32 (p.cmdConsumer % p.cmdSize * 32)
    | .resultWrite => (p.query.map (fun q => q.address)).getD 0
    | .completionWrite => p.cplBase + BitVec.ofNat 32 (p.cplWrite % p.cplSize * 16) := by
  cases phase with
  | fetch => rfl
  | resultWrite =>
      unfold Port.transferAddress
      cases p.query <;> rfl
  | completionWrite => rfl

/-- Settles O42, by the transfer on the path. -/
theorem busFaultByPhase : Obligations.BusFaultByPhase := by
  intro kind phase s _
  refine ⟨exec_busFault_none, fun path parity write => ?_, fun path fits => ?_⟩
  · exact exec_busFault_unfit path fun fits => fits.elim (fun other => other parity) write
  · rw [exec_busFault path fits, settle_faulted rfl, cutQuery_eq, transferAddress_eq]
    cases phase <;> rfl

end Sys2Proof.Machine
end

section
/-! PROOF. The eight queries (O39): how a query begins, the records of its snapshot in their order, and the
bytes of each. -/

namespace Sys2Proof.Machine

/-! ### The beginning of a query (R151, R162) -/

/-- What the command `i` of a query does that snapshots `records`, each of `size` bytes: with none to write
it completes at once, else it owes the first of them to the buffer. -/
def QueryBegins (h : Header) (q : QueryArgs) (s : State) (i : Instr) (code size : Nat)
    (records : List ResultRecord) : Prop :=
  (∀ r ∈ records, r.bytes.length = size)
  ∧ (records.take q.maxCount = [] →
      exec i s = .next (s.afterCommand (queryAnswers h code 0 records.length)))
  ∧ (records.take q.maxCount ≠ [] → exec i s = .next { s with port := { s.port with
      cmdConsumer := s.port.consumerAfter
      held := none
      query := some { header := h, code, address := BitVec.ofNat 32 q.buffer
                      left := records.take q.maxCount, written := 0, available := records.length }
      proc := .executing
      path := if s.port.queue ≠ [] then some .completionWrite else some .resultWrite
      mark := true } })

theorem queryBegins {h : Header} {q : QueryArgs} {s : State} {i : Instr} {code size : Nat}
    {records : List ResultRecord} {block : State → Reply} (ready : s.Ready)
    (row : exec i s = .next (arrive i (answering h code block) s))
    (reply : block s.taken = startQuery h code q records s.taken)
    (sizes : ∀ r ∈ records, r.bytes.length = size) : QueryBegins h q s i code size records := by
  refine ⟨sizes, fun nothing => ?_, fun owed => ?_⟩
  · rw [row, arrive_counts ready (reply.trans (if_pos nothing))]
  · rw [row, arrive_running ready (reply.trans (if_neg owed))]

/-! ### Snapshots in order -/

section
variable {α β : Type}

/-- The keys of a list that have a value, each with it. -/
def valued (l : List α) (f : α → Option β) : List (α × β) :=
  l.filterMap fun k => (f k).map fun v => (k, v)

theorem valued_keys (l : List α) (f : α → Option β) :
    (valued l f).map Prod.fst = l.filter fun k => (f k).isSome := by
  induction l with
  | nil => rfl
  | cons k l ih =>
      unfold valued at *
      cases value : f k <;> simp [value, ih]

theorem valued_length (l : List α) (f : α → Option β) :
    (valued l f).length = l.countP fun k => (f k).isSome := by
  rw [List.countP_eq_length_filter, ← valued_keys, List.length_map]

theorem mem_valued {l : List α} {f : α → Option β} {k : α} {v : β} :
    (k, v) ∈ valued l f ↔ k ∈ l ∧ f k = some v := by
  simp only [valued, List.mem_filterMap, Option.map_eq_some_iff, Prod.mk.injEq]
  constructor
  · rintro ⟨j, mem, w, value, rfl, rfl⟩
    exact ⟨mem, value⟩
  · rintro ⟨mem, value⟩
    exact ⟨k, mem, v, value, rfl, rfl⟩

/-- The records of the keys that have a value. -/
theorem filterMap_valued {γ : Type} (l : List α) (f : α → Option β) (g : α → β → γ) :
    l.filterMap (fun k => (f k).map (g k)) = (valued l f).map fun d => g d.1 d.2 := by
  rw [valued, List.map_filterMap]
  congr 1
  funext k
  rw [Option.map_map]
  rfl

/-- Where every key has a value the records stand at their keys' positions. -/
theorem filterMap_total {f : α → Option β} {l : List α} (total : ∀ k ∈ l, (f k).isSome = true) :
    (l.filterMap f).map some = l.map f := by
  induction l with
  | nil => rfl
  | cons k l ih =>
      obtain ⟨v, value⟩ := Option.isSome_iff_exists.1 (total k List.mem_cons_self)
      rw [List.filterMap_cons_some value, List.map_cons, List.map_cons, value,
        ih fun j mem => total j (List.mem_cons_of_mem _ mem)]

end

/-- The record of a number stands at that number. -/
theorem finRange_map_get {β : Type} {n : Nat} (f : Fin n → β) (k : Fin n) :
    ((List.finRange n).map f)[k.val]? = some (f k) := by
  simp

theorem finRange_map_length {β : Type} {n : Nat} (f : Fin n → β) :
    ((List.finRange n).map f).length = n := by
  simp

theorem map_plain_sizes {α : Type} {l : List α} {f : α → List Byte} {size : Nat}
    (each : ∀ x, (f x).length = size) :
    ∀ r ∈ l.map (fun x => ResultRecord.plain (f x)), r.bytes.length = size := by
  intro r mem
  obtain ⟨x, -, rfl⟩ := List.mem_map.1 mem
  exact each x

/-! ### QUERY_SOURCES (R163) -/

theorem slotSet_eq (m : MaskSlots) : slotSet m = codeYesNo (m.get 0).isSome + 2 * codeYesNo (m.get 1).isSome
    + 4 * codeYesNo (m.get 2).isSome + 8 * codeYesNo (m.get 3).isSome := by
  have four : List.finRange 4 = [0, 1, 2, 3] := rfl
  have bit (k : MaskId) : (if (m.get k).isSome then 2 ^ k.val else 0)
      = 2 ^ k.val * codeYesNo (m.get k).isSome := by
    cases (m.get k).isSome <;> simp [codeYesNo]
  simp only [slotSet, four, bit, List.map_cons, List.map_nil, List.sum_cons, List.sum_nil]
  show 1 * _ + (2 * _ + (4 * _ + (8 * _ + 0))) = _
  omega

theorem sourceBytes_eq (s : State) (i : SourceId) : sourceBytes s i =
    [byteField i.val, byteField (codeYesNo (s.source i).enabled), byteField (s.source i).port.val,
      byteField (codeExpect (s.source i).expect), byteField (s.source i).hStart,
      byteField (s.source i).vStart, byteField (codeYesNo (s.source i).fieldSwap),
      byteField (codeSourceState (s.source i).state), byteField (codeStandard (s.source i).standard),
      byteField (s.source i).goodRun, byteField (s.source i).badRun,
      byteField (codeOrNone (s.page i).newest),
      byteField (codeYesNo ((s.masks.get i).get 0).isSome + 2 * codeYesNo ((s.masks.get i).get 1).isSome
        + 4 * codeYesNo ((s.masks.get i).get 2).isSome + 8 * codeYesNo ((s.masks.get i).get 3).isSome),
      0, 0, 0, byteField (s.page i).count.toNat, byteField ((s.page i).count.toNat / 256),
      byteField ((s.page i).count.toNat / 65536), byteField ((s.page i).count.toNat / 16777216),
      0, 0, 0, 0] := by
  rw [sourceBytes, wordField_eq, slotSet_eq]
  rfl

/-! ### QUERY_LAYOUT (R164) -/

/-- R11: as many ranks as DEFINED slots. -/
theorem Bank.RankOk.length {b : Bank} (ok : b.RankOk) : b.order.length = b.slots.count Option.isSome := by
  obtain ⟨once, held⟩ := ok
  have same : b.order.Perm ((List.finRange 32).filter fun k => (b.slots.get k).isSome) :=
    (List.perm_ext_iff_of_nodup once ((List.nodup_finRange 32).filter _)).2 fun k => by
      rw [held, List.mem_filter, and_iff_right (List.mem_finRange k)]
  rw [Table.count_eq, List.countP_eq_length_filter, same.length_eq]

theorem Bank.rankOf_eq {b : Bank} (once : b.order.Nodup) {rank : Nat} {k : SlotId}
    (stands : b.order[rank]? = some k) : b.rankOf k = rank := by
  obtain ⟨inside, rfl⟩ := List.getElem?_eq_some_iff.1 stands
  exact once.idxOf_getElem rank inside

/-- The record of a slot of a bank, if DEFINED. -/
def layoutRecord (b : Bank) (k : SlotId) : Option ResultRecord :=
  (b.slots.get k).map fun t => .plain (layoutBytes k (b.rankOf k) t)

theorem layoutRecords_total {b : Bank} (ok : b.RankOk) :
    (layoutRecords b).map some = b.order.map (layoutRecord b) :=
  filterMap_total fun k mem => by rw [Option.isSome_map]; exact (ok.2 k).1 mem

theorem layoutRecords_length {b : Bank} (ok : b.RankOk) :
    (layoutRecords b).length = b.slots.count Option.isSome := by
  have lengths := congrArg List.length (layoutRecords_total ok)
  rwa [List.length_map, List.length_map, ok.length] at lengths

theorem layoutRecords_get {b : Bank} (ok : b.RankOk) {rank : Nat} {k : SlotId} {t : Tile}
    (stands : b.order[rank]? = some k) (tile : b.slots.get k = some t) :
    (layoutRecords b)[rank]? = some (.plain (layoutBytes k rank t)) := by
  have record := congrArg (·[rank]?) (layoutRecords_total ok)
  simp only [List.getElem?_map, stands, Option.map_some, layoutRecord, tile,
    Bank.rankOf_eq ok.1 stands] at record
  obtain ⟨r, found, same⟩ := Option.map_eq_some_iff.1 record
  rw [found, same]

theorem layoutRecords_sizes (b : Bank) : ∀ r ∈ layoutRecords b, r.bytes.length = 24 := by
  intro r mem
  obtain ⟨k, -, found⟩ := List.mem_filterMap.1 mem
  obtain ⟨t, -, rfl⟩ := Option.map_eq_some_iff.1 found
  rfl

/-! ### QUERY_RUNTIME and QUERY_TOUR (R165) -/

/-- The DEFINED slots of LIVE in slot order. -/
def liveSlots (s : State) (h : Head) : List (SlotId × Tile) := valued (List.finRange 32) (s.liveTile h)

theorem runtimeRecords_eq (s : State) (h : Head) :
    runtimeRecords s h = (liveSlots s h).map fun d => .plain (runtimeBytes s h d.1 d.2) :=
  filterMap_valued _ _ fun k t => ResultRecord.plain (runtimeBytes s h k t)

theorem topRule_eq (l : List Entry) : topRule l = l.head?.map fun e => e.rule := by
  cases l <;> rfl

theorem runtimeBytes_length (s : State) (h : Head) (k : SlotId) (t : Tile) :
    (runtimeBytes s h k t).length = 16 := by
  unfold runtimeBytes
  cases s.runtime h k <;> rfl

theorem stepBytes_length (steps : List TourStep) : (stepBytes steps).length = 24 := by
  rw [stepBytes, List.length_flatMap, List.map_congr_left (g := fun _ => 2)]
  · rfl
  · intro k _
    split <;> rfl

theorem tourBytes_length (y : TourId) (tour : Option Tour) : (tourBytes y tour).length = 32 := by
  cases tour with
  | none => rfl
  | some t =>
      rw [tourBytes, List.length_append, stepBytes_length]
      rfl

/-! ### QUERY_CALLUPS (R165) -/

theorem entryBytes_eq (e : Entry) : entryBytes e =
    [byteField e.rule.val, byteField e.priority, byteField (codeEntryState e.state),
      byteField (wholeSeconds e.state.holdLeft), byteField e.arrival.toNat,
      byteField (e.arrival.toNat / 256), byteField (e.arrival.toNat / 65536),
      byteField (e.arrival.toNat / 16777216), 0, 0, 0, 0, 0, 0, 0, 0] := by
  rw [entryBytes, wordField_eq]
  rfl

/-! ### QUERY_NOTICES (R159, R161) -/

theorem mem_keys (k : NoticeKey) : k ∈ NoticeSet.keys := by
  unfold NoticeSet.keys
  cases k with
  | sourceState i => simp
  | callupChange h slot => cases h <;> simp
  | callupRefused n => simp
  | tourAllLost h slot => cases h <;> simp

/-- A block of keys that stand at consecutive places. -/
theorem finRange_map_places {n : Nat} {key : Fin n → NoticeKey} (first : Nat)
    (each : ∀ k, keyPlace (key k) = first + k.val) :
    ((List.finRange n).map key).map keyPlace = List.range' first n := by
  apply List.ext_getElem
  · simp
  · intro i _ _
    simp [each]

/-- R159: the keys stand at their places. -/
theorem keys_places : NoticeSet.keys.map keyPlace = List.range' 0 176 := by
  have placed {n : Nat} (key : Fin n → NoticeKey) := finRange_map_places (key := key)
  unfold NoticeSet.keys
  simp only [List.map_append]
  rw [placed .sourceState 0 fun k => (Nat.zero_add _).symm, placed (.callupChange .a) 16 fun _ => rfl,
    placed (.callupChange .b) 48 fun _ => rfl, placed .callupRefused 80 fun _ => rfl,
    placed (.tourAllLost .a) 112 fun _ => rfl, placed (.tourAllLost .b) 144 fun _ => rfl]
  rfl

theorem keys_inOrder : NoticeSet.keys.Pairwise fun j k => keyPlace j < keyPlace k := by
  rw [← List.pairwise_map, keys_places]
  exact List.pairwise_lt_range'

theorem inOrder_eq (n : NoticeSet) : n.inOrder = valued NoticeSet.keys n.get := rfl

theorem inOrder_places (n : NoticeSet) : (n.inOrder.map fun kv => keyPlace kv.1).Pairwise (· < ·) := by
  have keys : (n.inOrder.map Prod.fst).Pairwise fun j k => keyPlace j < keyPlace k := by
    rw [inOrder_eq, valued_keys]
    exact keys_inOrder.filter _
  rw [List.pairwise_map] at keys ⊢
  exact keys

theorem mem_inOrder {n : NoticeSet} {k : NoticeKey} {v : NoticeValue} :
    (k, v) ∈ n.inOrder ↔ n.get k = some v := by
  rw [inOrder_eq, mem_valued, and_iff_right (mem_keys k)]

/-! ### The obligation -/

section
variable {h : Header} {q : QueryArgs} {hd : Head} {s : State}

theorem queryOk_of_clean (clean : h.clean = true) (aligned : bufferAligned q = true) :
    (!queryOk h q) = false := by
  rw [Bool.not_eq_false', queryOk, clean]
  exact aligned

/-- Past step 1 of the checks. -/
theorem query_checked {reply : Reply} (clean : h.clean = true) (aligned : bufferAligned q = true) :
    (if !queryOk h q then refuse s .badArgument else reply) = reply := by
  rw [queryOk_of_clean clean aligned]
  rfl

theorem querySources_begins (ready : s.Ready) (clean : h.clean = true) (aligned : bufferAligned q = true) :
    QueryBegins h q s (.querySources h q) 0x60 24 (sourceRecords s) :=
  queryBegins ready rfl (query_checked clean aligned) (map_plain_sizes fun _ => rfl)

theorem queryLayout_begins (ready : s.Ready) (clean : h.clean = true) (aligned : bufferAligned q = true)
    {name : BankName} {bank : Bank} (stands : s.bank hd name = some bank) :
    QueryBegins h q s (.queryLayout h q (codeHead hd) (codeBank name)) 0x61 24 (layoutRecords bank) := by
  refine queryBegins ready rfl ?_ (layoutRecords_sizes bank)
  have taken : s.taken.bank hd name = some bank := stands
  simp only [queryLayout, parseHead_code, parseBank_eq.2 rfl, query_checked clean aligned, taken]

theorem queryLayout_nothingPending (ready : s.Ready) (clean : h.clean = true)
    (aligned : bufferAligned q = true) (none_pending : (s.dir hd).commit = none) :
    exec (.queryLayout h q (codeHead hd) 1) s
      = .next (s.afterCommand (answers h 0x61 .nothingPending 0)) := by
  refine congrArg Host.Outcome.next (arrive_refused ready ?_)
  have absent : s.taken.bank hd .pending = none := congrArg (Option.map _) none_pending
  have named : parseBank 1 = some .pending := rfl
  simp only [queryLayout, parseHead_code, named, query_checked clean aligned, absent]

theorem queryRuntime_begins (ready : s.Ready) (clean : h.clean = true) (aligned : bufferAligned q = true) :
    QueryBegins h q s (.queryRuntime h q (codeHead hd)) 0x62 16 (runtimeRecords s hd) := by
  refine queryBegins ready rfl ?_ ?_
  · simp only [queryRuntime, parseHead_code, query_checked clean aligned]
    rfl
  · rw [runtimeRecords_eq]
    exact map_plain_sizes fun d => runtimeBytes_length s hd d.1 d.2

theorem queryTour_begins (ready : s.Ready) (clean : h.clean = true) (aligned : bufferAligned q = true)
    (y : TourId) : QueryBegins h q s (.queryTour h q y.val) 0x63 32 (tourRecords s y) := by
  refine queryBegins ready rfl ?_ fun r mem => ?_
  · simp only [queryTour, parseFin_val, query_checked clean aligned]
    rfl
  · rw [List.mem_singleton.1 mem]
    exact tourBytes_length y (s.tour y)

theorem ruleBytes_length (n : RuleId) (r : Option Rule) : (ruleBytes n r).length = 16 := by
  cases r <;> rfl

theorem queryRules_begins (ready : s.Ready) (clean : h.clean = true) (aligned : bufferAligned q = true) :
    QueryBegins h q s (.queryRules h q) 0x64 16 (ruleRecords s) :=
  queryBegins ready rfl (query_checked clean aligned) (map_plain_sizes fun n => ruleBytes_length n (s.rule n))

theorem queryLines_begins (ready : s.Ready) (clean : h.clean = true) (aligned : bufferAligned q = true) :
    QueryBegins h q s (.queryLines h q) 0x65 8 (lineRecords s) :=
  queryBegins ready rfl (query_checked clean aligned) (map_plain_sizes fun _ => rfl)

theorem queryCallups_begins (ready : s.Ready) (clean : h.clean = true) (aligned : bufferAligned q = true)
    (slot : SlotId) :
    QueryBegins h q s (.queryCallups h q (codeHead hd) slot.val) 0x66 16 (callupRecords s hd slot) := by
  refine queryBegins ready rfl ?_ (map_plain_sizes fun _ => rfl)
  simp only [queryCallups, parseHead_code, parseFin_val, query_checked clean aligned]
  rfl

theorem noticeBytes_length (k : NoticeKey) (v : NoticeValue) : (noticeBytes k v).length = 8 := by
  cases k <;> rfl

theorem queryNotices_begins (ready : s.Ready) (clean : h.clean = true) (aligned : bufferAligned q = true) :
    QueryBegins h q s (.queryNotices h q) 0x67 8 (noticeRecords s) := by
  refine queryBegins ready rfl (query_checked clean aligned) fun r mem => ?_
  obtain ⟨n, -, rfl⟩ := List.mem_map.1 mem
  exact noticeBytes_length n.1 n.2

end

/-- Settles O39, query by query: how it begins, how many records it snapshots, and the bytes of each. -/
theorem queriesBegin : Obligations.QueriesBegin := by
  intro h q hd slot y s ready clean aligned begins b plain
  refine ⟨querySources_begins ready clean aligned, finRange_map_length _, fun i => ?_,
    fun name bank stands => ⟨queryLayout_begins ready clean aligned stands, fun ok =>
      ⟨layoutRecords_length ok, fun rank k t at_rank tile => layoutRecords_get ok at_rank tile⟩⟩,
    queryLayout_nothingPending ready clean aligned,
    queryRuntime_begins ready clean aligned, ?_, ⟨liveSlots s hd, ?_, fun k t => ?_, ?_⟩,
    queryTour_begins ready clean aligned y, rfl, ?_,
    queryRules_begins ready clean aligned, finRange_map_length _, fun n => ?_,
    queryLines_begins ready clean aligned, finRange_map_length _, fun l => ?_,
    queryCallups_begins ready clean aligned slot, List.length_map .., fun position e entry => ?_,
    queryNotices_begins ready clean aligned, s.notices.inOrder, inOrder_places s.notices,
    fun k v => mem_inOrder, ?_⟩
  · rw [sourceRecords, finRange_map_get, sourceBytes_eq]
    rfl
  · rw [runtimeRecords_eq, List.length_map, liveSlots, valued_length, Table.count_eq]
    rfl
  · rw [liveSlots, valued_keys]
    exact (List.pairwise_lt_finRange 32).filter _
  · rw [liveSlots, mem_valued, and_iff_right (List.mem_finRange k)]
  · rw [runtimeRecords_eq]
    refine List.map_congr_left fun d _ => ?_
    rw [runtimeBytes, topRule_eq]
    cases s.runtime hd d.1 <;> rfl
  · rw [tourRecords]
    cases s.tour y <;> rfl
  · rw [ruleRecords, finRange_map_get]
    cases s.rule n <;> rfl
  · exact finRange_map_get _ l
  · rw [callupRecords, List.getElem?_map, entry, Option.map_some, entryBytes_eq]
    cases e.state <;> rfl
  · refine List.map_congr_left fun n _ => ?_
    obtain ⟨k, v⟩ := n
    cases k <;> rfl

end Sys2Proof.Machine
end

section
/-! PROOF. The device reset (O48) and the invariants of the machine right after it (O60). -/

namespace Sys2Proof.Machine

/-! ### DEVICE_RESET (R158) -/

theorem reset_head (hd : Head) : State.reset.head hd = .reset := PerHead.get_both _ hd

theorem reset_dir (hd : Head) : State.reset.dir hd = .reset := PerHead.get_both _ hd

theorem reset_list (hd : Head) (k : SlotId) : State.reset.list hd k = [] := by
  cases hd <;> exact Table.get_fill _ k

theorem reset_runtime (hd : Head) (k : SlotId) : State.reset.runtime hd k = none := by
  cases hd <;> exact Table.get_fill _ k

theorem reset_notice (k : NoticeKey) : State.reset.notices.get k = none := by
  cases k with
  | sourceState i => exact Table.get_fill _ i
  | callupChange hd slot => cases hd <;> exact Table.get_fill _ slot
  | callupRefused n => exact Table.get_fill _ n
  | tourAllLost hd slot => cases hd <;> exact Table.get_fill _ slot

theorem reset_page (i : SourceId) : State.reset.page i = .reset := Table.get_fill _ i

theorem reset_masks (i : SourceId) (k : MaskId) : (State.reset.masks.get i).get k = none := by
  have slots : State.reset.masks.get i = .fill 4 none := Table.get_fill _ i
  rw [slots, Table.get_fill]

/-- R37: nothing is latched of a source. -/
theorem reset_latched (i : SourceId) : HeadRecord.reset.claims.get i = none
    ∧ HeadRecord.reset.view.states.get i = none ∧ HeadRecord.reset.view.masks.get i = none :=
  ⟨Table.get_fill _ i, Table.get_fill _ i, Table.get_fill _ i⟩

/-- Settles O48: but for the queue, the SDRAM and the lines, the part is as `State.reset` has it. -/
theorem deviceResetResetsEveryBlock : Obligations.DeviceResetResetsEveryBlock := by
  intro s
  refine ⟨_, rfl, rfl, fun l => ?_, rfl, rfl, fun hd => ?_, fun hd => ?_, rfl, rfl, fun i => ?_,
    fun i => ?_, fun y => ?_, fun n => ?_, rfl, reset_notice⟩
  · exact Table.get_map LineRecord.deviceReset s.lines l
  · exact reset_head hd ▸
      ⟨rfl, rfl, rfl, rfl, rfl, rfl, rfl, rfl, fun k => Table.get_fill _ k, reset_latched⟩
  · exact reset_dir hd ▸ ⟨rfl, rfl, rfl, fun k =>
      ⟨Table.get_fill _ k, Table.get_fill _ k, reset_runtime hd k, reset_list hd k⟩⟩
  · exact Table.get_ofFn _ i
  · exact reset_page i ▸ ⟨rfl, rfl, rfl, fun q => Table.get_fill _ q, reset_masks i⟩
  · exact Table.get_fill _ y
  · exact Table.get_fill _ n

/-! ### The invariants (O60) -/

/-- R142 to R145: the rings have no entries, and the processor is STOPPED. -/
theorem reset_ringsOk : State.reset.RingsOk :=
  ⟨fun _ => ⟨rfl, rfl⟩, fun set => absurd rfl set, fun set => absurd rfl set, Nat.le_refl 0,
    Nat.zero_le 3, fun _ => rfl, ⟨nofun, nofun⟩, nofun⟩

/-- Settles O60, invariant by invariant. -/
theorem resetMeetsTheInvariants : Obligations.ResetMeetsTheInvariants :=
  ⟨rfl, .reset, .reset, .reset, .of_resetPages rfl, reset_ringsOk, .reset, State.toursOk_iff.2 .reset⟩

end Sys2Proof.Machine
end

section
/-! PROOF. Room in the completion ring (O57): a state that `State.RingsOk` admits and a step out of it. -/

namespace Sys2Proof.Machine

/-! ### The refutation -/

/-- A processor in WAITING that holds RUN_SET, which is no command of the ring, with room for an answer and
LEAVE_WAITING next in the queue. -/
def holdsNoRingCommand : State :=
  { State.reset with
    pending := [.leaveWaiting]
    port := { Port.reset with cplSize := 16, proc := .waiting, held := some .runSet } }

theorem holdsNoRingCommand_ringsOk : holdsNoRingCommand.RingsOk :=
  ⟨fun _ => ⟨rfl, rfl⟩, fun set => absurd rfl set, fun _ => ⟨by decide, by decide⟩, by decide,
    by decide, nofun, ⟨nofun, nofun⟩, nofun⟩

/-- The processor becomes EXECUTING for what it holds, which no block executes or answers. -/
theorem holdsNoRingCommand_step : step holdsNoRingCommand = .next { State.reset with
    port := { Port.reset with cplSize := 16, proc := .executing } } := rfl

/-- Refutes O57: `State.RingsOk` says nothing of the command that WAITING holds, and a processor that leaves
WAITING with what is no command of the ring stays in EXECUTING without a query. -/
theorem not_everyStepKeepsRoomForAnswers : ¬ Obligations.EveryStepKeepsRoomForAnswers := by
  intro keeps
  obtain ⟨-, -, -, -, -, -, executing, -⟩ :=
    keeps _ _ holdsNoRingCommand_ringsOk holdsNoRingCommand_step
  exact absurd (executing.2 rfl) nofun

end Sys2Proof.Machine
end

section
/-! PROOF. What O57 misses: with a command of the ring in WAITING, every step keeps the rings and their room
(R142 to R149). An answer owed is counted once: in the ring, in the queue, or as a reservation. -/

namespace Sys2Proof.Machine

/-! ### The indices of a ring (R142, R143) -/

theorem ringDistance_eq {n hi lo : Nat} (hiIn : hi < 2 * n) (loIn : lo < 2 * n) :
    ringDistance n hi lo = if lo ≤ hi then hi - lo else hi + 2 * n - lo := by
  unfold ringDistance
  split
  · next ahead =>
      rw [show hi + 2 * n - lo = hi - lo + 2 * n by omega, Nat.add_mod_right, Nat.mod_eq_of_lt (by omega)]
  · exact Nat.mod_eq_of_lt (by omega)

theorem ringNext_eq {n i : Nat} (inside : i < 2 * n) :
    ringNext n i = if i + 1 = 2 * n then 0 else i + 1 := by
  unfold ringNext
  split
  · next last => rw [last, Nat.mod_self]
  · exact Nat.mod_eq_of_lt (by omega)

theorem ringNext_lt {n i : Nat} (inside : i < 2 * n) : ringNext n i < 2 * n := Nat.mod_lt _ (by omega)

/-- R148: one command fewer is outstanding after a fetch. -/
theorem ringDistance_fetched {n hi lo : Nat} (hiIn : hi < 2 * n) (loIn : lo < 2 * n) (apart : hi ≠ lo) :
    ringDistance n hi (ringNext n lo) + 1 = ringDistance n hi lo := by
  rw [ringDistance_eq hiIn (ringNext_lt loIn), ringDistance_eq hiIn loIn, ringNext_eq loIn]
  split_ifs <;> omega

/-- R143: one entry more is occupied after a completion write, as long as the ring has room. -/
theorem ringDistance_wrote {n hi lo : Nat} (hiIn : hi < 2 * n) (loIn : lo < 2 * n)
    (room : ringDistance n hi lo < n) : ringDistance n (ringNext n hi) lo = ringDistance n hi lo + 1 := by
  rw [ringDistance_eq hiIn loIn] at *
  rw [ringDistance_eq (ringNext_lt hiIn) loIn, ringNext_eq hiIn]
  split_ifs at * <;> omega

/-- R142: a producer moved forward leaves its commands outstanding and announces more. -/
theorem ringDistance_advanced {n hi hi' lo : Nat} (hiIn : hi < 2 * n) (loIn : lo < 2 * n)
    (hiIn' : hi' < 2 * n) (room : ringDistance n hi lo + ringDistance n hi' hi ≤ n) :
    ringDistance n hi' lo = ringDistance n hi lo + ringDistance n hi' hi := by
  rw [ringDistance_eq hiIn loIn, ringDistance_eq hiIn' hiIn] at *
  rw [ringDistance_eq hiIn' loIn]
  split_ifs at * <;> omega

theorem ringDistance_self (n i : Nat) : ringDistance n i i = 0 := by
  rw [ringDistance, Nat.add_sub_cancel_left, Nat.mod_self]

theorem ringDistance_pos {n hi lo : Nat} (hiIn : hi < 2 * n) (loIn : lo < 2 * n) (apart : hi ≠ lo) :
    0 < ringDistance n hi lo := by
  rw [ringDistance_eq hiIn loIn]
  split <;> omega

/-! ### The port with the answers owed (R144, R145) -/

namespace Port

/-- R142 to R145, R148: the indices lie in their rings, the entries suffice for the completions queued and
`owed` further ones, and what is held is a command of the ring. -/
structure Fits (p : Port) (owed : Nat) : Prop where
  unset : p.cmdSize = 0 → p.cmdProducer = 0 ∧ p.cmdConsumer = 0
  commands : p.cmdSize ≠ 0 → p.cmdProducer < 2 * p.cmdSize ∧ p.cmdConsumer < 2 * p.cmdSize
    ∧ p.outstanding ≤ p.cmdSize
  entries : p.cplSize ≠ 0 → p.cplWrite < 2 * p.cplSize ∧ p.cplRead < 2 * p.cplSize
  room : p.occupancy + p.queue.length + owed ≤ p.cplSize
  short : p.queue.length + owed ≤ 3
  held : ∀ i, p.held = some i → (ringHeader i).isSome = true

/-- R144: the reservation of a query under way. -/
def querySlot (p : Port) : Nat := if p.query.isSome then 1 else 0

theorem querySlot_none {p : Port} (idle : p.query = none) : p.querySlot = 0 := by
  rw [querySlot, idle]
  rfl

/-- R150: an execution ends in IDLE, or in STOPPED with RUN clear. -/
theorem atRest_spec (p : Port) :
    (p.atRest = .stopped → p.run = false) ∧ p.atRest ≠ .executing ∧ p.atRest ≠ .fetching := by
  unfold atRest
  cases p.run <;> simp

theorem ringSize_ne_zero {v : Nat} (listed : Config.ringSizes.contains v = true) : v ≠ 0 := by
  rintro rfl
  exact absurd listed (by decide)

/-- The port between two steps, with `reserved` reservations of commit records. -/
structure Sound (p : Port) (reserved : Nat) : Prop where
  fits : p.Fits (p.querySlot + reserved)
  stopped : p.proc = .stopped → p.run = false
  executing : p.query.isSome = true ↔ p.proc = .executing
  announced : p.proc = .fetching → p.cmdProducer ≠ p.cmdConsumer

namespace Fits
variable {p : Port} {owed : Nat}

/-- Completions that join the queue take the place of answers owed. -/
theorem queued (fits : p.Fits owed) (done : List Completion) (cause : Causes) (mark : Bool) {left : Nat}
    (count : done.length + left ≤ owed) :
    ({ p with queue := p.queue ++ done, cause, mark } : Port).Fits left := by
  have length : (p.queue ++ done).length = p.queue.length + done.length := List.length_append
  refine { fits with room := ?_, short := ?_ }
  · have room := fits.room
    show p.occupancy + (p.queue ++ done).length + left ≤ p.cplSize
    omega
  · have short := fits.short
    show (p.queue ++ done).length + left ≤ 3
    omega

/-- R142: with a command announced its ring is set. -/
theorem commandsSet (fits : p.Fits owed) (announced : p.cmdProducer ≠ p.cmdConsumer) : p.cmdSize ≠ 0 := by
  intro unset
  obtain ⟨producer, consumer⟩ := fits.unset unset
  exact announced (producer.trans consumer.symm)

/-- R148: the read of a command entry completes. -/
theorem fetched (fits : p.Fits owed) (announced : p.cmdProducer ≠ p.cmdConsumer) : p.fetched.Fits owed := by
  have set := fits.commandsSet announced
  obtain ⟨producer, consumer, outstanding⟩ := fits.commands set
  have fewer := ringDistance_fetched producer consumer announced
  refine { fits with
    unset := fun unset => absurd unset set
    commands := fun _ => ⟨producer, ringNext_lt consumer, ?_⟩ }
  show ringDistance p.cmdSize p.cmdProducer (ringNext p.cmdSize p.cmdConsumer) ≤ p.cmdSize
  have before : ringDistance p.cmdSize p.cmdProducer p.cmdConsumer ≤ p.cmdSize := outstanding
  omega

/-- R146: the completion at the head of the queue has been written. -/
theorem wroteCompletion (fits : p.Fits owed) {c : Completion} {rest : List Completion}
    (queue : p.queue = c :: rest) : (p.wroteCompletion c rest).Fits owed := by
  have length : p.queue.length = rest.length + 1 := by rw [queue]; rfl
  have room := fits.room
  have short := fits.short
  obtain ⟨write, read⟩ := fits.entries (by omega)
  have occupied : p.occupancy < p.cplSize := by omega
  have more : (p.wroteCompletion c rest).occupancy = p.occupancy + 1 :=
    ringDistance_wrote write read occupied
  refine { fits with entries := fun _ => ⟨ringNext_lt write, read⟩, room := ?_, short := ?_ }
  · rw [more]
    show p.occupancy + 1 + rest.length + owed ≤ p.cplSize
    omega
  · show rest.length + owed ≤ 3
    omega

/-- R148: the entry is read, and the processor takes the reservation for the command. -/
theorem took (fits : p.Fits owed) (room : p.occupancy + p.queue.length + owed + 1 ≤ p.cplSize)
    (short : p.queue.length + owed ≤ 2) : p.took.Fits (owed + 1) :=
  { fits with
    room := by
      show p.occupancy + p.queue.length + (owed + 1) ≤ p.cplSize
      omega
    short := by
      show p.queue.length + (owed + 1) ≤ 3
      omega
    held := nofun }

end Fits

namespace Sound
variable {p : Port} {reserved : Nat}

/-- Completions that join the queue take the place of reservations of commit records. -/
theorem queued (sound : p.Sound reserved) (done : List Completion) (cause : Causes) (mark : Bool)
    {left : Nat} (count : done.length + left ≤ reserved) :
    ({ p with queue := p.queue ++ done, cause, mark } : Port).Sound left :=
  { sound with
    fits := sound.fits.queued done cause mark (left := p.querySlot + left) (by omega) }

/-- A cause raised. -/
theorem caused (sound : p.Sound reserved) (cause : Causes) : ({ p with cause } : Port).Sound reserved :=
  { sound with fits := { sound.fits with } }

/-- R146, R148, R153: what the port does by itself. -/
theorem settle (sound : p.Sound reserved) : p.settle.Sound reserved := by
  have granted : ({ p with
      proc := p.procSettled, path := p.pathSettled p.procSettled } : Port).Sound reserved := by
    unfold Port.procSettled
    split
    · next announces =>
        obtain ⟨idle, -, announced⟩ := announces
        have free : ¬ p.query.isSome = true := fun query =>
          absurd (idle.symm.trans (sound.executing.1 query)) nofun
        exact { fits := { sound.fits with }, stopped := nofun
                executing := ⟨fun query => absurd query free, nofun⟩, announced := fun _ => announced }
    · exact { sound with fits := { sound.fits with } }
  rw [Port.settle_eq]
  unfold Port.drain
  split
  · exact { granted with fits := { granted.fits with } }
  · exact granted

/-- Outside EXECUTING and FETCHING, with no query under way. -/
theorem rest (fits : p.Fits reserved) (idle : p.query = none) (stopped : p.proc = .stopped → p.run = false)
    (executing : p.proc ≠ .executing) (fetching : p.proc ≠ .fetching) : p.Sound reserved where
  fits := by rw [querySlot_none idle, Nat.zero_add]; exact fits
  stopped := stopped
  executing := ⟨fun query => absurd (idle ▸ query) nofun, fun runs => absurd runs executing⟩
  announced := fun fetches => absurd fetches fetching

/-- Outside EXECUTING no query is under way. -/
theorem idle (sound : p.Sound reserved) (proc : p.proc ≠ .executing) : p.query = none :=
  Option.not_isSome_iff_eq_none.1 fun query => proc (sound.executing.1 query)

theorem fits_idle (sound : p.Sound reserved) (proc : p.proc ≠ .executing) : p.Fits reserved := by
  have fits := sound.fits
  rwa [querySlot_none (sound.idle proc), Nat.zero_add] at fits

/-! ### Host writes (R141 to R143, R147, R152, R156) -/

theorem setRun (sound : p.Sound reserved) : p.setRun.Sound reserved := by
  unfold Port.setRun
  split
  · next stopped =>
      have apart : p.proc ≠ .executing := by rw [stopped]; exact nofun
      split
      · exact rest { sound.fits_idle apart with } (sound.idle apart) nofun nofun nofun
      · exact sound.caused _
  · next going =>
      exact { sound with fits := { sound.fits with }, stopped := fun stopped => absurd stopped going }

theorem clearRun (sound : p.Sound reserved) : p.clearRun.Sound reserved := by
  unfold Port.clearRun
  split
  · next idle =>
      have apart : p.proc ≠ .executing := by rw [idle]; exact nofun
      exact rest { sound.fits_idle apart with } (sound.idle apart) (fun _ => rfl) nofun nofun
  · exact { sound with fits := { sound.fits with }, stopped := fun _ => rfl }

theorem setMode (sound : p.Sound reserved) (m : CplMode) : (p.setMode m).Sound reserved :=
  { sound with fits := { sound.fits with } }

theorem restarted (sound : p.Sound reserved) : p.restarted.Sound reserved := by
  unfold Port.restarted
  split
  · next faulted =>
      have apart : p.proc ≠ .executing := by rw [faulted]; exact nofun
      have fits : p.Fits reserved := sound.fits_idle apart
      have free := sound.idle apart
      obtain ⟨stopped, executing, fetching⟩ := p.atRest_spec
      split
      · exact rest { fits with } free nofun nofun nofun
      · exact rest { fits with } free stopped executing fetching
  · exact sound

theorem writeControl (sound : p.Sound reserved) (v : Word) : (p.writeControl v).Sound reserved := by
  have moded : ((if v.getLsbD 0 then p.setRun else p.clearRun).setMode
      (modeOf (v.getLsbD 1))).Sound reserved := by
    split
    · exact sound.setRun.setMode _
    · exact sound.clearRun.setMode _
  unfold Port.writeControl
  dsimp only
  split
  · exact moded.restarted
  · exact moded

theorem writeCmdSize (sound : p.Sound reserved) (v : Nat) : (p.writeCmdSize v).Sound reserved := by
  unfold Port.writeCmdSize
  split
  · exact sound
  split
  · next going listed =>
      have set : v ≠ 0 := ringSize_ne_zero listed
      have empty : ringDistance v 0 0 = 0 := ringDistance_self v 0
      refine { sound with
        fits := { sound.fits with unset := fun _ => ⟨rfl, rfl⟩, commands := fun _ => ⟨?_, ?_, ?_⟩ }
        announced := fun fetches => absurd (not_not.1 going) (by rw [fetches]; exact nofun) }
      · show 0 < 2 * v
        omega
      · show 0 < 2 * v
        omega
      · show ringDistance v 0 0 ≤ v
        omega
  · exact sound.caused _

theorem writeProducer (sound : p.Sound reserved) (v : Nat) : (p.writeProducer v).Sound reserved := by
  unfold Port.writeProducer
  split
  · next taken =>
      obtain ⟨inRing, roomy⟩ := taken
      have set : p.cmdSize ≠ 0 := by omega
      obtain ⟨producer, consumer, -⟩ := sound.fits.commands set
      have advanced := ringDistance_advanced producer consumer inRing roomy
      refine { sound with
        fits := { sound.fits with
          unset := fun unset => absurd unset set
          commands := fun _ => ⟨inRing, consumer, advanced.trans_le roomy⟩ }
        announced := fun fetches same => ?_ }
      have before := ringDistance_pos producer consumer (sound.announced fetches)
      have after : ringDistance p.cmdSize v p.cmdConsumer = 0 := by
        rw [show v = p.cmdConsumer from same, ringDistance_self]
      omega
  · exact sound.caused _

theorem writeCplRead (sound : p.Sound reserved) (v : Nat) : (p.writeCplRead v).Sound reserved := by
  unfold Port.writeCplRead
  split
  · next taken =>
      obtain ⟨inRing, occupied⟩ := taken
      obtain ⟨write, -⟩ := sound.fits.entries (by omega)
      refine { sound with fits := { sound.fits with entries := fun _ => ⟨write, inRing⟩, room := ?_ } }
      have room := sound.fits.room
      show ringDistance p.cplSize p.cplWrite v + p.queue.length + (p.querySlot + reserved) ≤ p.cplSize
      omega
  · exact sound.caused _

theorem writeCmdBase (sound : p.Sound reserved) (v : Word) : (p.writeCmdBase v).Sound reserved := by
  unfold Port.writeCmdBase
  split
  · exact { sound with fits := { sound.fits with } }
  · exact sound

theorem writeCplBase (sound : p.Sound reserved) (v : Word) : (p.writeCplBase v).Sound reserved := by
  unfold Port.writeCplBase
  split
  · exact { sound with fits := { sound.fits with } }
  · exact sound

theorem writeEnable (sound : p.Sound reserved) (v : Word) : (p.writeEnable v).Sound reserved :=
  { sound with fits := { sound.fits with } }

/-- R157: a reset port owes no answer. -/
theorem afterReset (p : Port) : p.afterReset.Sound 0 := by
  have empty (n : Nat) : ringDistance n 0 0 = 0 := ringDistance_self n 0
  refine rest ?_ rfl (fun _ => rfl) nofun nofun
  refine ⟨fun _ => ⟨rfl, rfl⟩, fun set => ?_, fun set => ?_, ?_, Nat.zero_le 3, nofun⟩
  · have ring : 0 < 2 * p.cmdSize := Nat.mul_pos two_pos (Nat.pos_of_ne_zero set)
    exact ⟨ring, ring, (empty p.cmdSize).trans_le (Nat.zero_le _)⟩
  · have ring : 0 < 2 * p.cplSize := Nat.mul_pos two_pos (Nat.pos_of_ne_zero set)
    exact ⟨ring, ring⟩
  · exact (empty p.cplSize).trans_le (Nat.zero_le _)

/-! ### Transfers (R146, R151, R154, R155) -/

theorem wroteCompletion (sound : p.Sound reserved) {c : Completion} {rest : List Completion}
    (queue : p.queue = c :: rest) : (p.wroteCompletion c rest).Sound reserved :=
  { sound with fits := sound.fits.wroteCompletion queue }

/-- R151: the run of a query goes on. -/
theorem queryGoes (sound : p.Sound reserved) (under_way : p.query.isSome = true) (q : QueryRun)
    (w : Option BusWrite) : ({ p with lastWrite := w, query := some q } : Port).Sound reserved := by
  have slot : p.querySlot = 1 := if_pos under_way
  have fits := sound.fits
  rw [slot] at fits
  exact { sound with
    fits := { fits with }, executing := ⟨fun _ => sound.executing.1 under_way, fun _ => rfl⟩ }

/-- R150, R151, R155: the query ends, and with it the reservation that its completion takes the place of. -/
theorem queryEnds (sound : p.Sound reserved) {done : List Completion} (count : done.length ≤ p.querySlot)
    {proc : ProcState} (stopped : proc = .stopped → p.run = false) (executing : proc ≠ .executing)
    (fetching : proc ≠ .fetching) (cause : Causes) (mark : Bool) :
    ({ p with queue := p.queue ++ done, cause, mark, query := none, proc } : Port).Sound reserved :=
  rest { sound.fits.queued done cause mark (left := reserved) (by omega) with } rfl stopped executing
    fetching

/-! ### A command from its fetch to its answer (R148 to R150) -/

/-- R148: without room the processor holds the command. -/
theorem wait (fits : p.Fits reserved) (idle : p.query = none) {i : Instr}
    (ring : (ringHeader i).isSome = true) : (p.wait i).Sound reserved := by
  refine rest { fits with held := fun j holds => ?_ } idle nofun nofun nofun
  obtain rfl : i = j := Option.some.inj holds
  exact ring

end Sound

end Port

/-- R150: the completions a block's answer brings at once, or the reservation a run of result writes keeps. -/
def Answer.cost : Answer → Nat
  | .done _ _ => 1
  | .counts _ _ => 1
  | .deferred => 0
  | .running _ => 1

namespace Port

/-- R150: an answer is one completion at most. -/
theorem answered_eq (p : Port) (h : Header) (code : Nat) (r : Result) (detail detail2 : Nat) :
    ∃ done, done.length ≤ 1 ∧ p.answered h code r detail detail2 =
      { p with queue := p.queue ++ done, mark := true } := by
  unfold answered
  split
  · exact ⟨[], Nat.zero_le 1, by rw [List.append_nil]⟩
  · exact ⟨[_], Nat.le_refl 1, rfl⟩

/-- R150, R151: the reservation of a command under execution covers what its answer costs. -/
theorem executed_sound {p : Port} {owed reserved : Nat} {a : Answer} (fits : p.Fits owed)
    (idle : p.query = none) (count : a.cost + reserved ≤ owed) (h : Header) (code : Nat) :
    (p.executed h code a).Sound reserved := by
  obtain ⟨stopped, executing, fetching⟩ := p.atRest_spec
  have joins (done : List Completion) (one : done.length + reserved ≤ owed) :
      ({ p with queue := p.queue ++ done, mark := true, proc := p.atRest } : Port).Sound reserved :=
    .rest { fits.queued done p.cause true one with } idle stopped executing fetching
  cases a with
  | done r d =>
      obtain ⟨done, one, answered⟩ := p.answered_eq h code r d 0
      rw [executed, answered]
      exact joins done (by simp only [Answer.cost] at count; omega)
  | counts w n =>
      obtain ⟨done, one, answered⟩ := p.answered_eq h code .ok w n
      rw [executed, answered]
      exact joins done (by simp only [Answer.cost] at count; omega)
  | deferred =>
      have none_joins := joins [] (by simp only [Answer.cost] at count; simpa using count)
      rw [List.append_nil] at none_joins
      exact none_joins
  | running q =>
      have runs := fits.queued [] p.cause true (left := 1 + reserved) (by simpa [Answer.cost] using count)
      rw [List.append_nil] at runs
      exact ⟨{ runs with }, nofun, ⟨fun _ => rfl, fun _ => rfl⟩, nofun⟩

end Port

/-! ### The answers owed to commits (R144) -/

/-- R144: the reservation of a commit record. -/
def commitSlot : Option CommitRecord → Nat
  | some c => if c.answered then 1 else 0
  | none => 0

theorem holdsAnswer_eq (s : State) (h : Head) : s.holdsAnswer h = commitSlot (s.dir h).commit := by
  unfold State.holdsAnswer commitSlot
  cases (s.dir h).commit <;> rfl

theorem answeredCommits_eq (s : State) :
    s.answeredCommits = commitSlot (s.dir .a).commit + commitSlot (s.dir .b).commit := by
  rw [State.answeredCommits, holdsAnswer_eq, holdsAnswer_eq]

/-- Completions queued and completions owed to commits. -/
def State.owing (s : State) : Nat := s.port.queue.length + s.answeredCommits

theorem answeredCommits_of_dirs {s t : State} (dirs : t.dirs = s.dirs) :
    t.answeredCommits = s.answeredCommits := by
  simp only [answeredCommits_eq, State.dir, dirs]

theorem owing_of {s t : State} (queue : t.port.queue = s.port.queue) (dirs : t.dirs = s.dirs) :
    t.owing = s.owing := by
  rw [State.owing, queue, answeredCommits_of_dirs dirs]
  rfl

/-- A directory replaced, with its commit record. -/
theorem owing_setDir (s : State) (h : Head) (d : Directory) :
    (s.setDir h d).owing + commitSlot (s.dir h).commit = s.owing + commitSlot d.commit := by
  simp only [State.owing, answeredCommits_eq, State.setDir_dir, State.setDir_port]
  cases h
  · simp only [reduceCtorEq, if_true, if_false]
    omega
  · simp only [reduceCtorEq, if_true, if_false]
    omega

theorem owing_setDir_same {s : State} {h : Head} {d : Directory} (commit : d.commit = (s.dir h).commit) :
    (s.setDir h d).owing = s.owing := by
  have moved := owing_setDir s h d
  rw [commit] at moved
  omega

theorem owing_setWorking (s : State) (h : Head) (b : Bank) : (s.setWorking h b).owing = s.owing :=
  owing_setDir_same rfl

/-- Completions that join the queue. -/
theorem owing_setPort_queued (s : State) (done : List Completion) (mark : Bool) :
    (s.setPort { s.port with queue := s.port.queue ++ done, mark }).owing = s.owing + done.length := by
  have same : (s.setPort { s.port with queue := s.port.queue ++ done, mark }).answeredCommits
      = s.answeredCommits := answeredCommits_of_dirs rfl
  rw [State.owing, same, State.setPort_port, List.length_append, State.owing]
  omega

theorem AlarmFrame.owing {s t : State} (frame : AlarmFrame s t) : t.owing = s.owing :=
  owing_of (by rw [frame.port]; rfl) frame.dirs

theorem VideoFrame.owing {s t : State} (frame : VideoFrame s t) : t.owing = s.owing :=
  owing_of (by rw [frame.port]; rfl) frame.dirs

theorem TourFrame.owing {s t : State} (frame : TourFrame s t) : t.owing = s.owing :=
  owing_of (by rw [frame.port]; rfl) frame.dirs

theorem endAnswers_length (r : Result) (o : Option CommitRecord) :
    (endAnswers r o).length = commitSlot o := by
  cases o with
  | none => rfl
  | some c => cases answered : c.answered <;> simp [endAnswers, commitSlot, answered]

theorem commitAnswers_length (c : CommitRecord) (detail : Nat) :
    (commitAnswers c detail).length ≤ commitSlot (some c) := by
  unfold commitAnswers
  split
  · next due =>
      have slot : commitSlot (some c) = 1 := if_pos due.1
      rw [slot]
      rfl
  · exact Nat.zero_le _

/-- R25, R29: the completion of an ended commit takes the place of its reservation. -/
theorem endCommit_owing (h : Head) (r : Result) (s : State) : (endCommit h r s).owing = s.owing := by
  obtain ⟨mark, ended⟩ := endCommit_eq h r s
  have moved := owing_setDir s h (s.dir h).ended
  have none_left : commitSlot (s.dir h).ended.commit = 0 := rfl
  have queued := owing_setPort_queued (s.setDir h (s.dir h).ended) (endAnswers r (s.dir h).commit) mark
  rw [endAnswers_length] at queued
  rw [ended]
  exact queued.trans (by omega)

/-- R26: the new LIVE bank and its carry-over. -/
theorem applyBank_owing (h : Head) (new : Bank) (s : State) : (applyBank h new s).owing = s.owing := by
  have queue : (applyBank h new s).port.queue = s.port.queue :=
    (congrArg Port.queue (heard_carryOver h (s.dir h).live new _).1).trans rfl
  have dirs : (applyBank h new s).dirs = (s.setDir h { s.dir h with live := new }).dirs := by
    unfold applyBank
    rw [carryOver_records]
    rfl
  exact (owing_of (s := s.setDir h { s.dir h with live := new }) queue dirs).trans (owing_setDir_same rfl)

/-- R26, R28: the completion of an applied commit takes the place of its reservation, if it has one. -/
theorem applyCommit_owing (h : Head) (detail : Nat) (s : State) :
    (applyCommit h detail s).owing ≤ s.owing := by
  cases pending : (s.dir h).commit with
  | none => rw [applyCommit_none pending]
  | some c =>
      rw [applyCommit_some pending, commitAnswer_eq, owing_setPort_queued, applyBank_owing]
      have moved := owing_setDir s h (s.dir h).ended
      have none_left : commitSlot (s.dir h).ended.commit = 0 := rfl
      have answer := commitAnswers_length c detail
      rw [pending] at moved
      omega

theorem completeStop_owing (h : Head) (s : State) : (completeStop h s).owing ≤ s.owing := by
  rw [completeStop_eq]
  exact applyCommit_owing h 0 _

/-! ### Every block keeps within the command's reservation (R144, R150) -/

/-- A block lets the port grow alone, and its reply owes no more than was owed before the command and the
reservation taken for it. -/
structure Covered (s : State) (reply : Reply) : Prop where
  port : PortGrown s reply.1
  owing : reply.1.owing + reply.2.cost ≤ s.owing + 1

namespace Covered
variable {s u : State} {r : Result} {d : Nat}

theorem refused : Covered s (refuse s r d) := ⟨.of_same rfl, Nat.le_refl _⟩

theorem done (port : PortGrown s u) (within : u.owing ≤ s.owing) : Covered s (u, .done r d) :=
  ⟨port, Nat.succ_le_succ within⟩

/-- The block has changed neither the port nor a directory. -/
theorem apart (port : u.port = s.port) (dirs : u.dirs = s.dirs) : Covered s (u, .done r d) :=
  done (.of_same port) (owing_of (congrArg Port.queue port) dirs).le

theorem alarm (frame : AlarmFrame s u) : Covered s (u, .done r d) :=
  done (.of_notice frame.port) frame.owing.le

theorem rule (frame : AlarmFrame s u) (n : RuleId) (x : Option Rule) :
    Covered s (u.setRule n x, .done r d) :=
  done ((PortGrown.of_notice frame.port).trans (.of_same rfl)) frame.owing.le

theorem video (frame : VideoFrame s u) : Covered s (u, .done r d) :=
  done (.of_notice frame.port) frame.owing.le

theorem tour (frame : TourFrame s u) : Covered s (u, .done r d) :=
  done (.of_notice frame.port) frame.owing.le

theorem working (hd : Head) (b : Bank) : Covered s (s.setWorking hd b, .done r d) :=
  done (.of_same rfl) (owing_setWorking s hd b).le

theorem ite {c : Prop} [Decidable c] {x y : Reply} (yes : Covered s x) (no : Covered s y) :
    Covered s (if c then x else y) := by
  split
  · exact yes
  · exact no

theorem query {h : Header} {code : Nat} {q : QueryArgs} {records : List ResultRecord} :
    Covered s (startQuery h code q records s) :=
  .ite ⟨.of_same rfl, Nat.le_refl _⟩ ⟨.of_same rfl, Nat.le_refl _⟩

end Covered

section
variable (h : Header) (s : State)

theorem tilePlace_covered (head slot rank : Nat) (tile : TileBlock) :
    Covered s (tilePlace h head slot rank tile s) := by
  unfold tilePlace
  split
  · exact .ite .refused (.ite .refused (.ite .refused (.ite .refused (.working _ _))))
  · exact .refused

theorem tileModify_covered (head slot groups : Nat) (tile : TileBlock) :
    Covered s (tileModify h head slot groups tile s) := by
  unfold tileModify
  split
  · refine .ite .refused ?_
    split
    · exact .refused
    · exact .ite .refused (.ite .refused (.working _ _))
  · exact .refused

theorem tileRestack_covered (head slot rank : Nat) : Covered s (tileRestack h head slot rank s) := by
  unfold tileRestack
  split
  · exact .ite .refused (.ite .refused (.working _ _))
  · exact .refused

theorem tileRetire_covered (head slot : Nat) : Covered s (tileRetire h head slot s) := by
  unfold tileRetire
  split
  · exact .ite .refused (.ite .refused (.working _ _))
  · exact .refused

theorem layoutClear_covered (head : Nat) : Covered s (layoutClear h head s) := by
  unfold layoutClear
  split
  · exact .ite .refused (.working _ _)
  · exact .refused

theorem layoutRevert_covered (head : Nat) : Covered s (layoutRevert h head s) := by
  unfold layoutRevert
  split
  · exact .ite .refused (.working _ _)
  · exact .refused

/-- R24, R25: a commit that stays pending keeps the reservation of its command. -/
theorem layoutCommit_covered (head : Nat) : Covered s (layoutCommit h head s) := by
  unfold layoutCommit
  split
  · next hd _ =>
      have superseded := endCommit_portGrown hd (.inl rfl) s
      refine .ite .refused (.ite (.done ?_ ?_) ⟨superseded.trans (.of_same rfl), ?_⟩)
      · exact superseded.trans (applyBank_portGrown hd _ _)
      · rw [applyBank_owing, endCommit_owing]
      · have ended := endCommit_owing hd .superseded s
        have pends := owing_setDir (endCommit hd .superseded s) hd { (endCommit hd .superseded s).dir hd with
          commit := some { bank := (s.dir hd).working, tag := h.tag, quiet := h.quiet, answered := true } }
        have slot : commitSlot (some (CommitRecord.mk (s.dir hd).working h.tag h.quiet true)) = 1 := rfl
        rw [slot, ended] at pends
        exact (Nat.le_add_right _ _).trans pends.le
  · exact .refused

theorem layoutCancel_covered (head : Nat) : Covered s (layoutCancel h head s) := by
  unfold layoutCancel
  split
  · refine .ite .refused ?_
    split
    · exact .refused
    · exact .done (endCommit_portGrown _ (.inr rfl) s) (endCommit_owing _ _ s).le
  · exact .refused

theorem headStart_covered (head standard : Nat) : Covered s (headStart h head standard s) := by
  unfold headStart
  split
  · exact .ite .refused (.ite .refused (.apart rfl rfl))
  · exact .refused

theorem headStop_covered (head : Nat) : Covered s (headStop h head s) := by
  unfold headStop
  split
  · refine .ite .refused ?_
    split
    · exact .ite (.apart rfl rfl) (.done (completeStop_portGrown _ s) (completeStop_owing _ s))
    · exact .apart rfl rfl
    · exact .apart rfl rfl
  · exact .refused

theorem paletteSet_covered (index y cb cr : Nat) : Covered s (paletteSet h index y cb cr s) := by
  unfold paletteSet
  split
  · exact .ite .refused (.apart rfl rfl)
  · exact .refused

theorem headBackground_covered (head colour : Nat) : Covered s (headBackground h head colour s) := by
  unfold headBackground
  split
  · exact .ite .refused (.apart rfl rfl)
  · exact .refused

theorem sourceSet_covered (a : SourceArgs) : Covered s (sourceSet h a s) := by
  unfold sourceSet
  split
  · refine .ite .refused ?_
    split
    · exact .refused
    · exact .video (((VideoFrame.refl s).setPage _ _).changeSource _ _)
  · exact .refused

theorem sourceDisable_covered (source : Nat) : Covered s (sourceDisable h source s) := by
  unfold sourceDisable
  split
  · exact .ite .refused (.ite (.apart rfl rfl)
      (.video (((VideoFrame.refl s).setPage _ _).changeSource _ _)))
  · exact .refused

theorem lockParams_covered (lockCount unstableLimit lossTimeout : Nat) :
    Covered s (lockParams h lockCount unstableLimit lossTimeout s) :=
  .ite .refused (.ite (.apart rfl rfl) .refused)

theorem maskSet_covered (a : MaskArgs) : Covered s (maskSet h a s) := by
  unfold maskSet
  split
  · exact .ite .refused (.ite .refused (.apart rfl rfl))
  · exact .refused

theorem maskClear_covered (source slot : Nat) : Covered s (maskClear h source slot s) := by
  unfold maskClear
  split
  · exact .ite .refused (.apart rfl rfl)
  · exact .refused

theorem tourSet_covered (a : TourArgs) : Covered s (tourSet h a s) := by
  unfold tourSet
  split
  · refine .ite .refused ?_
    split
    · exact .apart rfl rfl
    · exact .apart rfl rfl
  · exact .refused

theorem tourRetire_covered (tour : Nat) : Covered s (tourRetire h tour s) := by
  unfold tourRetire
  split
  · exact .ite .refused (.ite .refused (.apart rfl rfl))
  · exact .refused

theorem tourControl_covered (head slot action : Nat) : Covered s (tourControl h head slot action s) := by
  unfold tourControl
  split
  · refine .ite .refused (.ite .refused ?_)
    split
    · exact .tour (controlRuntime_tourFrame ..)
    · exact .refused
  · exact .refused

theorem lineSet_covered (line enabled polarity debounce : Nat) :
    Covered s (lineSet h line enabled polarity debounce s) := by
  unfold lineSet
  split
  · next l en pol _ _ _ =>
      exact .ite .refused (.alarm (lineSet_alarmFrame l { (endAlarm l s).line l with
        enabled := en, polarity := pol, debounce := debounce, timer := none } s))
  · exact .refused

theorem ruleSet_covered (a : RuleArgs) : Covered s (ruleSet h a s) := by
  unfold ruleSet
  split
  · next n r _ _ => exact .ite .refused (.rule (removeEntryOf_alarmFrame n s) n _)
  · exact .refused

theorem ruleRetire_covered (rule : Nat) : Covered s (ruleRetire h rule s) := by
  unfold ruleRetire
  split
  · next n _ => exact .ite .refused (.rule (removeEntryOf_alarmFrame n s) n _)
  · exact .refused

theorem callupTrigger_covered (rule : Nat) : Covered s (callupTrigger h rule s) := by
  unfold callupTrigger
  split
  · next n _ =>
      refine .ite .refused ?_
      split
      · exact .refused
      · next r _ =>
          refine .ite .refused ?_
          have frame := fire_alarmFrame .software n r s
          split
          · next fired => rw [fired] at frame; exact .alarm frame
          · exact .refused
          · exact .refused
  · exact .refused

theorem callupClear_covered (head slot rule : Nat) : Covered s (callupClear h head slot rule s) := by
  unfold callupClear
  split
  · exact .ite .refused (.alarm ((AlarmFrame.refl s).replaceList _ _ _))
  · exact .refused

variable (q : QueryArgs)

theorem querySources_covered : Covered s (querySources h q s) := .ite .refused .query

theorem queryLayout_covered (head bank : Nat) : Covered s (queryLayout h q head bank s) := by
  unfold queryLayout
  split
  · refine .ite .refused ?_
    split
    · exact .query
    · exact .refused
  · exact .refused

theorem queryRuntime_covered (head : Nat) : Covered s (queryRuntime h q head s) := by
  unfold queryRuntime
  split
  · exact .ite .refused .query
  · exact .refused

theorem queryTour_covered (tour : Nat) : Covered s (queryTour h q tour s) := by
  unfold queryTour
  split
  · exact .ite .refused .query
  · exact .refused

theorem queryRules_covered : Covered s (queryRules h q s) := .ite .refused .query

theorem queryLines_covered : Covered s (queryLines h q s) := .ite .refused .query

theorem queryCallups_covered (head slot : Nat) : Covered s (queryCallups h q head slot s) := by
  unfold queryCallups
  split
  · exact .ite .refused .query
  · exact .refused

theorem queryNotices_covered : Covered s (queryNotices h q s) := .ite .refused .query

end

/-- The block of a ring command keeps within the command's reservation. -/
theorem ring_covered {i : Instr} {h : Header} (ring : ringHeader i = some h) :
    ∃ code block, execute i = answering h code block ∧ ∀ s, Covered s (block s) := by
  cases i <;> cases ring
  case tilePlace => exact ⟨_, _, rfl, fun s => tilePlace_covered h s ..⟩
  case tileModify => exact ⟨_, _, rfl, fun s => tileModify_covered h s ..⟩
  case tileRestack => exact ⟨_, _, rfl, fun s => tileRestack_covered h s ..⟩
  case tileRetire => exact ⟨_, _, rfl, fun s => tileRetire_covered h s ..⟩
  case layoutClear => exact ⟨_, _, rfl, fun s => layoutClear_covered h s ..⟩
  case layoutRevert => exact ⟨_, _, rfl, fun s => layoutRevert_covered h s ..⟩
  case layoutCommit => exact ⟨_, _, rfl, fun s => layoutCommit_covered h s ..⟩
  case layoutCancel => exact ⟨_, _, rfl, fun s => layoutCancel_covered h s ..⟩
  case headStart => exact ⟨_, _, rfl, fun s => headStart_covered h s ..⟩
  case headStop => exact ⟨_, _, rfl, fun s => headStop_covered h s ..⟩
  case paletteSet => exact ⟨_, _, rfl, fun s => paletteSet_covered h s ..⟩
  case headBackground => exact ⟨_, _, rfl, fun s => headBackground_covered h s ..⟩
  case sourceSet => exact ⟨_, _, rfl, fun s => sourceSet_covered h s ..⟩
  case sourceDisable => exact ⟨_, _, rfl, fun s => sourceDisable_covered h s ..⟩
  case lockParams => exact ⟨_, _, rfl, fun s => lockParams_covered h s ..⟩
  case maskSet => exact ⟨_, _, rfl, fun s => maskSet_covered h s ..⟩
  case maskClear => exact ⟨_, _, rfl, fun s => maskClear_covered h s ..⟩
  case tourSet => exact ⟨_, _, rfl, fun s => tourSet_covered h s ..⟩
  case tourRetire => exact ⟨_, _, rfl, fun s => tourRetire_covered h s ..⟩
  case tourControl => exact ⟨_, _, rfl, fun s => tourControl_covered h s ..⟩
  case lineSet => exact ⟨_, _, rfl, fun s => lineSet_covered h s ..⟩
  case ruleSet => exact ⟨_, _, rfl, fun s => ruleSet_covered h s ..⟩
  case ruleRetire => exact ⟨_, _, rfl, fun s => ruleRetire_covered h s ..⟩
  case callupTrigger => exact ⟨_, _, rfl, fun s => callupTrigger_covered h s ..⟩
  case callupClear => exact ⟨_, _, rfl, fun s => callupClear_covered h s ..⟩
  case querySources => exact ⟨_, _, rfl, fun s => querySources_covered h s ..⟩
  case queryLayout => exact ⟨_, _, rfl, fun s => queryLayout_covered h s ..⟩
  case queryRuntime => exact ⟨_, _, rfl, fun s => queryRuntime_covered h s ..⟩
  case queryTour => exact ⟨_, _, rfl, fun s => queryTour_covered h s ..⟩
  case queryRules => exact ⟨_, _, rfl, fun s => queryRules_covered h s ..⟩
  case queryLines => exact ⟨_, _, rfl, fun s => queryLines_covered h s ..⟩
  case queryCallups => exact ⟨_, _, rfl, fun s => queryCallups_covered h s ..⟩
  case queryNotices => exact ⟨_, _, rfl, fun s => queryNotices_covered h s ..⟩
  case badCommand => exact ⟨_, badCommand, rfl, fun _ => .refused⟩

/-! ### The rings over a step -/

theorem queryAnswers_length (h : Header) (code written second : Nat) :
    (queryAnswers h code written second).length ≤ 1 := by
  unfold queryAnswers
  split
  · exact Nat.zero_le 1
  · exact Nat.le_refl 1

/-- R148: what the processor holds in WAITING is a command of the ring. -/
def State.HoldsRing (s : State) : Prop := ∀ i, s.port.held = some i → (ringHeader i).isSome = true

/-- `State.RingsOk` with a command of the ring in WAITING. -/
def State.RingsSound (s : State) : Prop := s.port.Sound s.answeredCommits

theorem reservations_querySlot (s : State) : s.reservations = s.port.querySlot + s.answeredCommits := rfl

theorem ringsSound_iff {s : State} : s.RingsSound ↔ s.RingsOk ∧ s.HoldsRing := by
  constructor
  · rintro ⟨⟨unset, commands, entries, room, short, held⟩, stopped, executing, announced⟩
    exact ⟨⟨unset, commands, entries, room, short, stopped, executing, announced⟩, held⟩
  · rintro ⟨⟨unset, commands, entries, room, short, stopped, executing, announced⟩, held⟩
    exact ⟨⟨unset, commands, entries, room, short, held⟩, stopped, executing, announced⟩

/-- R148: what `State.hasRoom` grants. -/
theorem hasRoom_spec {s : State} (room : s.hasRoom = true) :
    s.port.occupancy + s.port.queue.length + s.reservations + 1 ≤ s.port.cplSize
      ∧ s.port.queue.length + s.answeredCommits ≤ 2 := by
  obtain ⟨free, short⟩ := Bool.and_eq_true_iff.1 room
  have space : 1 ≤ s.port.cplSize - s.port.occupancy - s.port.queue.length - s.reservations :=
    of_decide_eq_true free
  exact ⟨by omega, of_decide_eq_true short⟩

namespace State.RingsSound
variable {s t : State}

/-- A port that keeps its form under the same commit records, and then settles. -/
theorem settledPort {p : Port} (sound : p.Sound s.answeredCommits) : (s.setPort p).settled.RingsSound :=
  sound.settle

/-- An event that lets the port grow by completions of the commits it ends. -/
theorem grown (ok : s.RingsSound) (port : PortGrown s t) (owing : t.owing ≤ s.owing) : t.RingsSound := by
  obtain ⟨pre, cause, mark, eq, -⟩ := port
  have count : pre.length + t.answeredCommits ≤ s.answeredCommits := by
    rw [State.owing, State.owing, eq, List.length_append] at owing
    omega
  unfold RingsSound
  rw [eq]
  exact ok.queued pre cause mark count

theorem alarm (ok : s.RingsSound) (frame : AlarmFrame s t) : t.RingsSound :=
  ok.grown (.of_notice frame.port) frame.owing.le

theorem video (ok : s.RingsSound) (frame : VideoFrame s t) : t.RingsSound :=
  ok.grown (.of_notice frame.port) frame.owing.le

theorem tour (ok : s.RingsSound) (frame : TourFrame s t) : t.RingsSound :=
  ok.grown (.of_notice frame.port) frame.owing.le

theorem settled (ok : s.RingsSound) : s.settled.RingsSound := ok.settle

theorem applyCommit (ok : s.RingsSound) (h : Head) (detail : Nat) : (applyCommit h detail s).RingsSound :=
  ok.grown (applyCommit_portGrown h detail s) (applyCommit_owing h detail s)

theorem completeStop (ok : s.RingsSound) (h : Head) : (completeStop h s).RingsSound :=
  ok.grown (completeStop_portGrown h s) (completeStop_owing h s)

/-- R150: a ring command is executed on the reservation taken for it. -/
theorem executed {i : Instr} {h : Header} (ring : ringHeader i = some h)
    (fits : s.port.Fits (s.answeredCommits + 1)) (idle : s.port.query = none) :
    (execute i s).settled.RingsSound := by
  obtain ⟨code, block, by_block, covered⟩ := ring_covered ring
  obtain ⟨⟨pre, cause, mark, port, -⟩, owing⟩ := covered s
  rw [State.owing, State.owing, port, List.length_append] at owing
  have left := fits.queued pre cause mark
    (left := (block s).2.cost + (block s).1.answeredCommits) (by omega)
  rw [by_block]
  refine settledPort ?_
  rw [port]
  exact Port.executed_sound left idle (Nat.le_refl _) h code

/-- R148: the read of the record of a ring command completes, with room or without. -/
theorem arrive (ok : s.RingsSound) {i : Instr} {h : Header} (ring : ringHeader i = some h) :
    (arrive i (execute i) s).RingsSound := by
  cases fetches : s.fetchUnderWay with
  | false => rw [arrive_idle fetches]; exact ok
  | true =>
      have ⟨proc, _⟩ : s.port.proc = .fetching ∧ s.port.path = some .fetch := by
        simpa [State.fetchUnderWay] using fetches
      have apart : s.port.proc ≠ .executing := by rw [proc]; exact nofun
      have fits := (ok.fits_idle apart).fetched (ok.announced proc)
      cases room : s.hasRoom with
      | false =>
          rw [arrive_waits fetches room]
          exact settledPort (.wait fits (ok.idle apart) (by rw [ring]; rfl))
      | true =>
          obtain ⟨entries, short⟩ := hasRoom_spec room
          rw [reservations_querySlot, Port.querySlot_none (ok.idle apart), Nat.zero_add] at entries
          rw [arrive_ready ⟨fetches, room⟩]
          exact executed (s := s.taken) ring (.took fits entries short) rfl

/-- R149: the wait for room ends. -/
theorem leaveWaiting (ok : s.RingsSound) (run : exec .leaveWaiting s = .next t) : t.RingsSound := by
  cases run
  split
  · next i held =>
      split
      · next ready =>
          obtain ⟨waits, room⟩ := ready
          obtain ⟨h, ring⟩ := Option.isSome_iff_exists.1 (ok.fits.held i held)
          have apart : s.port.proc ≠ .executing := by rw [waits]; exact nofun
          obtain ⟨entries, short⟩ := hasRoom_spec room
          rw [reservations_querySlot, Port.querySlot_none (ok.idle apart), Nat.zero_add] at entries
          exact executed (s := s.setPort s.port.took) ring (.took (ok.fits_idle apart) entries short) rfl
      · exact ok
  · exact ok

/-! ### Host writes and transfers -/

/-- R157: no commit record holds a reservation after a port reset. -/
theorem portReset (s : State) : s.portReset.settled.RingsSound := by
  have none_owed : s.portReset.answeredCommits = 0 := by
    rw [State.answeredCommits, holdsAnswer_portReset, holdsAnswer_portReset]
  refine settledPort (s := s.portReset) ?_
  rw [none_owed]
  exact .afterReset s.port

theorem writeCplSize (ok : s.RingsSound) (v : Nat) : (s.writeCplSize v).Sound s.answeredCommits := by
  unfold State.writeCplSize
  split
  · exact ok
  split
  · next going granted =>
      obtain ⟨listed, queue, unreserved⟩ : Config.ringSizes.contains v = true ∧ s.port.queue = []
          ∧ s.reservations = 0 := by simpa [and_assoc] using granted
      have set : v ≠ 0 := Port.ringSize_ne_zero listed
      have empty : ringDistance v 0 0 = 0 := ringDistance_self v 0
      rw [reservations_querySlot] at unreserved
      refine { ok with fits := { ok.fits with entries := fun _ => ⟨?_, ?_⟩, room := ?_ } }
      · show 0 < 2 * v
        omega
      · show 0 < 2 * v
        omega
      · show ringDistance v 0 0 + s.port.queue.length + (s.port.querySlot + s.answeredCommits) ≤ v
        rw [empty, queue, unreserved]
        exact Nat.zero_le v
  · exact ok.caused _

theorem writeRegister (ok : s.RingsSound) (offset : Nat) (v : Word) :
    (s.writeRegister offset v).RingsSound := by
  unfold State.writeRegister
  split
  · split
    · exact portReset s
    · exact settledPort (.writeControl ok v)
  split
  · exact Port.Sound.writeCmdBase ok v
  split
  · exact settledPort (.writeCmdSize ok _)
  split
  · exact settledPort (.writeProducer ok _)
  split
  · exact Port.Sound.writeCplBase ok v
  split
  · exact settledPort (ok.writeCplSize _)
  split
  · exact settledPort (.writeCplRead ok _)
  split
  · exact settledPort (.caused ok _)
  split
  · exact Port.Sound.writeEnable ok v
  · exact ok

/-- R151: a query's completion takes the place of its reservation. -/
theorem resultWrite (ok : s.RingsSound) (run : exec .resultWrite s = .next t) : t.RingsSound := by
  cases run
  split
  · next q _ query =>
      split
      · next r rest _ =>
          cases rest with
          | nil =>
              have one : (queryAnswers q.header q.code (q.written + 1)
                  (if q.code = 0x67 then (s.notices.reported r.notice).size else q.available)).length
                  ≤ s.port.querySlot := by
                rw [Port.querySlot, query]
                exact queryAnswers_length ..
              obtain ⟨stopped, executing, fetching⟩ := s.port.atRest_spec
              have ended := ok.queryEnds one stopped executing fetching s.port.cause true
              rw [writeResult_ends]
              exact settledPort (s := reporting q r s) { ended with fits := { ended.fits with } }
          | cons next rest =>
              rw [writeResult_goes (List.cons_ne_nil _ _)]
              exact settledPort (s := reporting q r s) (ok.queryGoes (by rw [query]; rfl) _ _)
      · exact ok
  · exact ok

theorem completionWrite (ok : s.RingsSound) (run : exec .completionWrite s = .next t) : t.RingsSound := by
  cases run
  split
  · next c rest _ queue => exact settledPort (ok.wroteCompletion queue)
  · exact ok

/-- R155: the DATA_FAULT completion of a query cut takes the place of its reservation. -/
theorem busFault (ok : s.RingsSound) {kind : BusFaultKind} (run : exec (.busFault kind) s = .next t) :
    t.RingsSound := by
  cases run
  split
  · split
    · have one : (cutAnswers s).length ≤ s.port.querySlot := by
        unfold cutAnswers Port.querySlot
        cases s.port.query <;> exact Nat.le_refl _
      rw [cutQuery_eq]
      have cut := ok.queryEnds (proc := .faulted) one nofun nofun nofun
        { s.port.cause with fault := true } (s.port.mark || s.port.query.isSome)
      exact settledPort { cut with fits := { cut.fits with } }
    · exact ok
  · exact ok

/-! ### Frames (R43, R48) -/

theorem beginFrame (ok : s.RingsSound) (h : Head) : (beginFrame h s).RingsSound := by
  show (s.port.raiseFrame h).Sound s.answeredCommits
  rw [raiseFrame_eq]
  exact ok.caused _

theorem frameEnd (ok : s.RingsSound) {h : Head} (run : exec (.frameEnd h) s = .next t) : t.RingsSound := by
  cases run
  split
  · split
    · exact (ok.completeStop h).settled
    · exact ok.settle
  · exact ok

theorem reset : State.reset.RingsSound := Port.Sound.afterReset .reset

end State.RingsSound

/-! ### Every step -/

/-- The rows that are no commands of the ring. -/
theorem State.RingsSound.event {c : Instr} {s t : State} (ok : s.RingsSound) (event : ringHeader c = none)
    (run : exec c s = .next t) : t.RingsSound := by
  cases c with
  | runSet => cases run; exact settledPort (.setRun ok)
  | runClear => cases run; exact settledPort (.clearRun ok)
  | completionInterruptMode m => cases run; exact settledPort (.setMode ok m)
  | portReset => cases run; exact portReset s
  | restart => cases run; exact settledPort (.restarted ok)
  | cmdSize v => cases run; exact settledPort (.writeCmdSize ok _)
  | cplSize v => cases run; exact settledPort (ok.writeCplSize _)
  | cmdProducer v => cases run; exact settledPort (.writeProducer ok _)
  | cplRead v => cases run; exact settledPort (.writeCplRead ok _)
  | cause v => cases run; exact settledPort (.caused ok _)
  | registerWrite offset enables v =>
    cases run
    split
    · exact ok.writeRegister offset v
    · exact ok
  | fetch record =>
    cases run
    obtain ⟨h, ring⟩ := Option.isSome_iff_exists.1 (decodeRecord_ring record)
    exact ok.arrive ring
  | leaveWaiting => exact ok.leaveWaiting run
  | resultWrite => exact ok.resultWrite run
  | completionWrite => exact ok.completionWrite run
  | busFault => exact ok.busFault run
  | frameStart h =>
    cases run
    split
    · exact ((ok.applyCommit h _).beginFrame h).settled
    · exact ok
  | frameEnd h => exact ok.frameEnd run
  | timingCode =>
    cases run
    split
    · exact ok.video (takeCodes_videoFrame _ _ s)
    · exact ok
  | lossTimerExpiry i =>
    cases run
    split
    · exact ok.video (((VideoFrame.refl s).setPage i _).changeSource i _)
    · exact ok
  | dwellExpiry =>
    cases run
    split
    · split
      · exact ok.tour (advanceRuntime_tourFrame ..)
      · exact ok
    · exact ok
  | levelChange l =>
    cases run
    split
    · exact ok.alarm (((AlarmFrame.refl s).setLine l _).trans (takeSample_alarmFrame l _))
    · exact ok.alarm ((AlarmFrame.refl s).setLine l _)
  | debounceExpiry l =>
    cases run
    split
    · exact ok.alarm (lineCompares_alarmFrame l s)
    · exact ok
  | holdExpiry =>
    cases run
    split
    · split
      · exact ok.alarm ((AlarmFrame.refl s).replaceList _ _ _)
      · exact ok
    · exact ok
  | deviceReset => cases run; exact State.RingsSound.reset
  | _ => cases event

theorem State.RingsSound.exec {c : Instr} {s t : State} (ok : s.RingsSound) (run : exec c s = .next t) :
    t.RingsSound := by
  cases ring : ringHeader c with
  | none => exact ok.event ring run
  | some h =>
      cases (exec_ring ring s).symm.trans run
      exact ok.arrive ring

theorem State.RingsSound.tick {s : State} (ok : s.RingsSound) : (tick s).RingsSound := by
  have counted : (countDown s).RingsSound := ok
  exact counted.alarm (tick_alarmFrame s)

/-- A millisecond and every command keep the rings sound. -/
theorem step_ringsSound {s t : State} (ok : s.RingsSound) (run : step s = .next t) : t.RingsSound := by
  unfold step at run
  split at run
  · rw [← Host.Outcome.next.inj run]
    exact ok.tick
  · next rest _ =>
      have popped : ({ s with pending := rest } : State).RingsSound := ok
      exact popped.exec run

/-- R142 to R149: what O57 says holds of every step from a state in which WAITING holds a command of the
ring, and the step keeps that too. -/
theorem step_keeps_ringsOk {s t : State} (ok : s.RingsOk) (holds : s.HoldsRing) (run : step s = .next t) :
    t.RingsOk ∧ t.HoldsRing :=
  ringsSound_iff.1 (step_ringsSound (ringsSound_iff.2 ⟨ok, holds⟩) run)

/-- What every step keeps holds after any number of steps. -/
theorem run_keeps (M : Host.Core) {P : M.State → Prop} (each : ∀ s t, P s → M.step s = .next t → P t)
    (k : Nat) {s t : M.State} (start : P s) (run : M.run k s = .next t) : P t := by
  induction k generalizing s with
  | zero =>
      cases run
      exact start
  | succ k ih =>
      unfold Host.Core.run at run
      split at run
      · next u stepped => exact ih (each s u start stepped) run
      · cases run
      · cases run

/-- From a device reset, whatever the queue holds, every state reached keeps the rings: the state that refutes
O57 is none of them. -/
theorem reset_run_ringsOk (commands : List Instr) (k : Nat) {t : State}
    (run : core.run k { State.reset with pending := commands } = .next t) : t.RingsOk := by
  have start : ({ State.reset with pending := commands } : State).RingsSound := State.RingsSound.reset
  exact (ringsSound_iff.1 (run_keeps core (P := State.RingsSound) (fun _ _ => step_ringsSound) k start run)).1

end Sys2Proof.Machine
end

section
/-! PROOF. A notice raised (R160, O8): the set under every key, and cause NOTICE. -/

namespace Sys2Proof.Machine

/-- R160: cause NOTICE is set where the key was absent, and stands where it was present. -/
theorem State.raise_causeNotice (s : State) (k : NoticeKey) (v : NoticeValue) :
    (s.raise k v).port.cause.notice =
      if s.notices.get k = none then true else s.port.cause.notice := by
  rw [State.raise_eq]
  cases key : s.notices.get k with
  | none => exact Bool.or_true _
  | some old => exact Bool.or_false _

/-- Settles O8: the set is read back under the key and under every other, and the rest of the part is as it
was but for cause NOTICE. -/
theorem noticeIsAddedOrReplaced : Obligations.NoticeIsAddedOrReplaced := by
  intro s k v
  refine ⟨NoticeSet.get_put_same s.notices k _, fun _ other => NoticeSet.get_put_other s.notices _ other, ?_⟩
  rw [← State.raise_causeNotice s k v]
  exact State.raise_eq s k v

end Sys2Proof.Machine
end
